-- ==== Sys2Proof/Word.lean ====
section
/-! DEFINITION. The two bit-vector types of the host bus (20_memory.md R62). Everything wider is a `Nat`: the spec
states every operand, product and result as a natural number (00_scope.md section 6.1). -/

namespace Sys2Proof

/-- A 32-bit word: a command word, a control register or one word of an operand register (R62, R90). -/
abbrev Word := BitVec 32

/-- A byte offset inside the 32 KiB register space (R60, R62: `req_addr[14:0]`). -/
abbrev Offset := BitVec 15

end Sys2Proof
end

