-- ==== Sys2Proof/Syntax.lean ====
section
/-! DEFINITION. The commands of the block: one constructor per row of spec/opcode_table.json (30_encoding.md R91).
Every operand is implicit (R94) and there is no immediate (R95), so no constructor has an argument. -/

namespace Sys2Proof

/-- A command of the block (R91). -/
inductive Instr where
  /-- `NOP`, R185. -/
  | nop
  /-- `MODMUL`, R111. -/
  | modmul
  /-- `MODEXP`, R112. -/
  | modexp
  /-- `EGCD`, R133. -/
  | egcd
  /-- `MODINV`, R138. -/
  | modinv
  /-- `MRTEST`, R157. -/
  | mrtest
  /-- `MRWIT`, R160. -/
  | mrwit
  /-- `MONTMUL`, R176; it exists only on an instance with `MONT = 1` (R10). -/
  | montmul
deriving DecidableEq, Repr

end Sys2Proof
end

