-- ==== Sys2Proof/Decode.lean ====
section
/-! DEFINITION. Decoder and encoder of command words (30_encoding.md R90 to R93). One format, one length, no operand
field: `op = c[7:0]`, `rsv = c[31:8]`. Whether MONTMUL exists on the instance is not read from the word; its meaning
checks `MONT` (44_control_and_access.md R187). -/

namespace Sys2Proof

/-- The field `op`, `c[7:0]` (R90). -/
def cmdOp (c : Word) : BitVec 8 := c.extractLsb' 0 8

/-- The field `rsv`, `c[31:8]` (R90). -/
def cmdRsv (c : Word) : BitVec 24 := c.extractLsb' 8 24

/-- Why a word is no command of the table; both end in `IllegalCommand` (R92, R93). -/
inductive DecodeError where
  /-- R92: a reserved bit of the word is set. -/
  | reservedBits
  /-- R93: the opcode is one of 0x08 to 0xFF. -/
  | reservedOpcode
deriving DecidableEq, Repr

/-- The opcode map, R91. -/
def decodeOp (op : BitVec 8) : Except DecodeError Instr :=
  match op.toNat with
  | 0 => .ok .nop
  | 1 => .ok .modmul
  | 2 => .ok .modexp
  | 3 => .ok .egcd
  | 4 => .ok .modinv
  | 5 => .ok .mrtest
  | 6 => .ok .mrwit
  | 7 => .ok .montmul
  | _ => .error .reservedOpcode

/-- The decoder: total on all 2^32 words; the reserved field is looked at first, whatever `op` is (R92). -/
def decode (c : Word) : Except DecodeError Instr :=
  if cmdRsv c ≠ 0 then .error .reservedBits else decodeOp (cmdOp c)

/-- The opcode of a command, R91. -/
def Instr.opcode : Instr → BitVec 8
  | .nop => 0x00#8
  | .modmul => 0x01#8
  | .modexp => 0x02#8
  | .egcd => 0x03#8
  | .modinv => 0x04#8
  | .mrtest => 0x05#8
  | .mrwit => 0x06#8
  | .montmul => 0x07#8

/-- The command word of a command: reserved bits 0 above the opcode (R90, R91). -/
def encode (i : Instr) : Word := i.opcode.setWidth 32

/-- The instruction the decoder reads from a table row's word: `nbits` bits of `w`, every bit above them 0. A command
word has 32 bits (R90), so nothing longer is one. -/
def decodeTableWord (nbits w : Nat) : Option Instr :=
  let c := w % 2 ^ nbits
  if c < 2 ^ 32 then
    match decode (BitVec.ofNat 32 c) with
    | .ok i => some i
    | .error _ => none
  else none

end Sys2Proof
end

