-- ==== Sys2Proof/Config.lean ====
section
/-! DEFINITION. What an instance of the block fixes: the parameters `W` and `MONT` (00_scope.md R9, R10), the
constants `ID` and `ROUNDS_RESET` (R1, R11). R12: no other parameter exists. The parameters of an instance are held
in `State` (they are what its register `CFG` reads as), so a statement about every state is a statement about every
instance. Nothing in this spec is left a free value: the witnesses of R75 are input, not configuration. -/

namespace Sys2Proof

/-- The parameters of one instance (R9, R10, R14). -/
structure Params where
  /-- `NW = W / 32`, the number of 32-bit words of an operand register. -/
  nw : Nat
  /-- `MONT`: the command MONTMUL exists. -/
  mont : Bool
deriving DecidableEq, Repr

/-- `W`, the operand width in bits (R9): a multiple of 32 by construction. -/
def Params.width (p : Params) : Nat := 32 * p.nw

/-- The identification word, ASCII "RSA1" (R1, R30). -/
def Config.idWord : Word := 0x52534131#32

/-- `ROUNDS_RESET` (R11). -/
def Config.roundsReset : Word := 64#32

/-- The instance that `State.reset` is: `W = 32`, `MONT = 1`, the instance of every vector of 95_test_vectors.md that
names no other. DESIGN CHOICE (log entry 1): the spec leaves `W` and `MONT` open. -/
def Config.resetParams : Params := ⟨1, true⟩

end Sys2Proof
end

