-- ==== Sys2Proof/Machine/State.lean ====
section
/-! DEFINITION. The state of the block (10_state.md R20): six W-bit registers, the control registers, the sequencer
phase, the hidden working values of the command in flight, the pending randomness request; and beside them two fields
of the MODEL's own: the input that has not reached the block yet, and the answer to the host's last transaction.
`ID` is a constant and `CMD` is no storage register (R46); `CFG` reads the instance's parameters. -/

namespace Sys2Proof.Machine

/-- The error kinds of the block with their codes in `Flags.lean` (60_exceptions.md R230). -/
inductive CmdError where
  /-- `M = 0`; for MONTMUL also an even `M`. -/
  | invalidModulus
  /-- MODINV: `gcd(M, A) != 1`. -/
  | notInvertible
  /-- MRTEST: a draw failed or its value lies outside the range asked for. -/
  | rngFailure
  /-- The command word is none of the table's. -/
  | illegalCommand
  /-- MRWIT: the witness lies outside `[2, n - 2]`. -/
  | operandRange
deriving DecidableEq, Repr

/-- The sequencer phase, the block's analogue of a program counter (R28). -/
inductive Phase where
  /-- `IDLE`: no command in flight. -/
  | idle
  /-- `RUN(c)`: the word `c`, latched at acceptance, is in flight. -/
  | run (c : Word)
deriving DecidableEq, Repr

/-- The six W-bit registers (R21, R22). -/
inductive RegIdx where
  | A | B | M | R | X | Y
deriving DecidableEq, Repr

/-- One answer of the randomness source: `rng_val`, `rng_fail` (R74). -/
structure RngAnswer where
  val  : Nat
  fail : Bool
deriving DecidableEq, Repr

/-- A request on the randomness port: `rng_lo`, `rng_hi` (R74). -/
structure RngReq where
  lo : Nat
  hi : Nat
deriving DecidableEq, Repr

/-- The working values of an exponentiation: accumulator, current base power, exponent bits left (R29, R113). -/
structure PowWork where
  acc : Nat
  bp  : Nat
  ex  : Nat
deriving DecidableEq, Repr

/-- The three rows and the quotient of the Euclidean loop (R29, R134). -/
structure EuclidWork where
  oldR : Int
  r    : Int
  oldS : Int
  s    : Int
  oldT : Int
  t    : Int
  q    : Int
deriving DecidableEq, Repr

/-- Where the engine stands in the command in flight: hidden state (R29, R48), never readable by the host. -/
inductive Work where
  /-- Nothing computed yet; also the value while `IDLE`, since no working value survives completion. -/
  | fresh
  /-- The exact product inside the multiplier, up to 2W bits (R29, R110). -/
  | product (p : Nat)
  /-- MODEXP inside the loop of R113. -/
  | pow (w : PowWork)
  /-- EGCD or MODINV inside the loop of R134. -/
  | euclid (w : EuclidWork)
  /-- MRTEST or MRWIT halving `n - 1` (R153): `n - 1 = 2^s * d`. -/
  | mrFactor (d s : Nat)
  /-- MRTEST before round `i`: the request is pending (R48, R154). -/
  | mrAwait (d s i : Nat) (req : RngReq)
  /-- Round `i` with witness `a`, inside the exponentiation `a^d mod n` (R155). -/
  | mrPow (d s i a : Nat) (w : PowWork)
  /-- Round `i` with witness `a`, after `j` squarings of `x` (R155). -/
  | mrSquare (d s i a x j : Nat)
deriving DecidableEq, Repr

/-- The stored fields of `STATUS` (R33). `BUSY` is read from the phase (R34), `ERRF` from `err` (R36); `err` is
`none` for code 0. -/
structure Status where
  done   : Bool
  err    : Option CmdError
  prime  : Bool
  wrBusy : Bool
  op     : BitVec 8
deriving DecidableEq, Repr

/-- `CTRL` (R40). -/
structure Ctrl where
  ieDone : Bool
  ieErr  : Bool
deriving DecidableEq, Repr

/-- `SIGN` (R44): signs of EGCD's inputs and outputs. -/
structure Sign where
  as : Bool
  bs : Bool
  xs : Bool
  ys : Bool
deriving DecidableEq, Repr

/-- What reaches the block next: the host's moves and the randomness answers of 70_reset_and_hazards.md R280, and the
two ways the engine is given its turn between them (R63: either order of a transaction and an engine step is
possible). -/
inductive Event where
  /-- A bus read (R64). -/
  | read (addr : Offset)
  /-- A bus write (R65). -/
  | write (addr : Offset) (data : Word)
  /-- `rst_n` pulsed low (R260). -/
  | reset
  /-- The randomness source answers (R74). -/
  | answer (a : RngAnswer)
  /-- The engine makes one iteration of its command's loop; it never completes the command here (R29). -/
  | tick
  /-- The engine runs on to the completion step, or to a draw that is not answered (R187, R188). -/
  | engine
deriving DecidableEq, Repr

/-- The answer to a host transaction (R62): `(rdata, err)` of a read, `(err)` of a write. -/
inductive BusRsp where
  | read (rdata : Word) (err : Bool)
  | write (err : Bool)
deriving DecidableEq, Repr

/-- The state of the block and its input. A register of `W` bits is a `Nat` below `2^W` (00_scope.md section 6.1);
that bound is an invariant of the machine (`Safety.lean`). -/
structure State where
  /-- `W` and `MONT` of this instance; what `CFG` reads (R9, R10, R31). -/
  params : Params
  /-- Operand register `A` (R21). -/
  a : Nat
  /-- Operand register `B` (R21). -/
  b : Nat
  /-- Operand register `M` (R21). -/
  m : Nat
  /-- Result register `R` (R22). -/
  r : Nat
  /-- Result register `X`, a magnitude (R22, R26). -/
  x : Nat
  /-- Result register `Y`, a magnitude (R22, R26). -/
  y : Nat
  /-- `STATUS` (R33). -/
  status : Status
  /-- `CTRL` (R40). -/
  ctrl : Ctrl
  /-- `ROUNDS` (R41). -/
  rounds : Word
  /-- `MRS` (R42). -/
  mrs : Word
  /-- `MRCNT` (R43). -/
  mrcnt : Word
  /-- `SIGN` (R44). -/
  sign : Sign
  /-- The sequencer phase (R28). -/
  phase : Phase
  /-- Working values and pending request of the command in flight (R29, R48). -/
  work : Work
  /-- MODEL's own: the events that have not reached the block yet, next one first (log entry 3). -/
  script : List Event
  /-- MODEL's own: the answer to the host's last transaction, `none` before the first (log entry 8). -/
  rsp : Option BusRsp
deriving DecidableEq, Repr

/-- No step of this block stops the machine: every error of the spec is a completion (60_exceptions.md R234: "No
error stops the block."), a bus error is an answer (R233), an unanswered draw keeps the block busy (R272). So no
constructor: nobody raises a fault (log entry 9). -/
inductive Fault where
deriving DecidableEq, Repr

/-- Raised by `exec`'s arm of an instruction that has no meaning yet; no arm is such a one. Safe: nothing can be
proved about a state after it. -/
inductive Refusal where
  | notModelled (mnemonic : String)
deriving DecidableEq, Repr

/-- The state right after reset of an instance with parameters `p` (R46: "Nothing is left unspecified"). -/
def State.resetFor (p : Params) : State where
  params := p
  a := 0
  b := 0
  m := 0
  r := 0
  x := 0
  y := 0
  status := ⟨false, none, false, false, 0#8⟩
  ctrl := ⟨false, false⟩
  rounds := Config.roundsReset
  mrs := 0#32
  mrcnt := 0#32
  sign := ⟨false, false, false, false⟩
  phase := .idle
  work := .fresh
  script := []
  rsp := none

/-- The machine right after reset (R46), for the instance of `Config.resetParams` (log entry 1). -/
def State.reset : State := State.resetFor Config.resetParams

end Sys2Proof.Machine
end

