-- ==== Sys2Proof/Machine/Ops.lean ====
section
/-! DEFINITION. The named operations every meaning is written over: words of a W-bit register, exact modular
multiplication, one randomness answer, the life cycle of a command (acceptance, completion, completion with an error
and the host's acknowledgement of it), reset. -/

namespace Sys2Proof.Machine

/-! ### Numbers (00_scope.md section 6.1) -/

/-- `bitlen(v)`: the number of bits of `v`, 0 for 0. -/
def bitlen (v : Nat) : Nat := if v = 0 then 0 else Nat.log2 v + 1

/-- `mulmod(u, v, m)`: the product is not truncated before the reduction (R110). -/
def mulmod (u v m : Nat) : Nat := u * v % m

/-! ### The W-bit registers (10_state.md R21, R22; 20_memory.md R69) -/

/-- The value of a W-bit register. -/
def State.regValue (s : State) : RegIdx → Nat
  | .A => s.a
  | .B => s.b
  | .M => s.m
  | .R => s.r
  | .X => s.x
  | .Y => s.y

/-- Writes an operand register; the host cannot write a result register (R22), so those are left alone. -/
def State.setOperand (s : State) (k : RegIdx) (v : Nat) : State :=
  match k with
  | .A => { s with a := v }
  | .B => { s with b := v }
  | .M => { s with m := v }
  | .R | .X | .Y => s

/-- Word `i` of a value: its bits `32*i + 31` down to `32*i` (R69). -/
def wordOf (v i : Nat) : Word := BitVec.ofNat 32 (v / 2 ^ (32 * i))

/-- The value with its word `i` replaced and every other bit kept (R65, R69). -/
def withWord (v i : Nat) (w : Word) : Nat :=
  v % 2 ^ (32 * i) + 2 ^ (32 * i) * (w.toNat + 2 ^ 32 * (v / 2 ^ (32 * (i + 1))))

/-! ### The randomness port (20_memory.md R75) -/

/-- What the engine makes of the answer to `draw(lo, hi)`: the value, or `none` where R75 raises `RngFailure`. -/
def drawValue (req : RngReq) (ans : RngAnswer) : Option Nat :=
  if ans.fail || decide (ans.val < req.lo) || decide (ans.val > req.hi) then none else some ans.val

/-! ### The life cycle of a command (44_control_and_access.md R186 to R188) -/

/-- `BUSY` (R34): a function of the phase. -/
def State.busy (s : State) : Bool :=
  match s.phase with
  | .idle => false
  | .run _ => true

/-- Acceptance of the word `c` (R186), whether or not it is a command of the table (R93). -/
def State.accept (s : State) (c : Word) : State :=
  { s with
    status := { s.status with done := false, err := none, prime := false, op := cmdOp c }
    phase := .run c
    work := .fresh }

/-- The results of a command that succeeds: the columns marked "w" of R23. -/
inductive Results where
  /-- NOP. -/
  | none
  /-- MODMUL, MODEXP, MODINV, MONTMUL: `R`. -/
  | value (r : Nat)
  /-- EGCD: `R` and the signed `x`, `y`. -/
  | bezout (g : Nat) (x y : Int)
  /-- MRTEST, MRWIT: `STATUS.PRIME`, `MRS`, `MRCNT`. -/
  | verdict (prime : Bool) (s cnt : Nat)
deriving DecidableEq, Repr

/-- How a command ends: `ok(results)` or `error(code)` (R187). -/
inductive CmdOutcome where
  | ok (w : Results)
  | error (e : CmdError)
deriving DecidableEq, Repr

/-- Writes the results of a command into its result registers (R23); a signed result is sign and magnitude, and a
zero magnitude gets sign bit 0 (R26, R27). -/
def State.writeResults (s : State) : Results → State
  | .none => s
  | .value r => { s with r := r }
  | .bezout g x y =>
    { s with
      r := g
      x := x.natAbs
      y := y.natAbs
      sign := { s.sign with xs := decide (x < 0), ys := decide (y < 0) } }
  | .verdict p e cnt =>
    { s with
      status := { s.status with prime := p }
      mrs := BitVec.ofNat 32 e
      mrcnt := BitVec.ofNat 32 cnt }

/-- Completion without an error, after the results are written (R188). -/
def State.complete (s : State) : State :=
  { s with
    status := { s.status with err := none, done := true }
    phase := .idle
    work := .fresh }

/-- Taking an error, the block's synchronous exception (60_exceptions.md R232, R240): the cause goes to `STATUS.ERR`,
no result register is written, the block is idle again; no mode changes and control goes nowhere. `STATUS.OP` already
holds the opcode, from acceptance. -/
def State.takeError (s : State) (e : CmdError) : State :=
  { s with
    status := { s.status with err := some e, done := true }
    phase := .idle
    work := .fresh }

/-- `commit`: all effects of a completion at one instant (R188). -/
def State.commit (s : State) : CmdOutcome → State
  | .ok w => (s.writeResults w).complete
  | .error e => s.takeError e

/-- A host write of `v` to `STATUS` (R65): clears `DONE`, `ERR`, `WRBUSY` where bits 1, 2, 4 of `v` are set. With bits
1 and 2 it is `ACK`, the block's return from an error: nothing is restored because nothing was saved (R240). -/
def State.clearFlags (s : State) (v : Word) : State :=
  { s with
    status := { s.status with
      done := s.status.done && !v.getLsbD 1
      err := if v.getLsbD 2 then none else s.status.err
      wrBusy := s.status.wrBusy && !v.getLsbD 4 } }

/-- A host write that is ignored because the block is busy (R38, R72). -/
def State.flagWrBusy (s : State) : State := { s with status := { s.status with wrBusy := true } }

/-! ### Reset and the model's own fields -/

/-- `rst_n` (R260, R262): every piece of state takes its reset value, a command in flight and a pending request are
gone. The instance stays what it is, and the events that come after the reset are still to come. -/
def State.reinit (s : State) : State := { State.resetFor s.params with script := s.script }

/-- Removes what has reached the block from its input. -/
def State.withScript (s : State) (rest : List Event) : State := { s with script := rest }

/-- Moves the engine inside the command in flight: hidden state only (R29). -/
def State.withWork (s : State) (w : Work) : State := { s with work := w }

/-- The answer to the host's transaction (R62). -/
def State.respond (s : State) (a : BusRsp) : State := { s with rsp := some a }

end Sys2Proof.Machine
end

