-- ==== Sys2Proof/Machine/Operands.lean ====
section
/-! DEFINITION. Operand forms. A command's operands are implicit (30_encoding.md R94): whole W-bit registers, two of
them with a sign bit for EGCD (10_state.md R26). A host transaction's operand is a 15-bit offset, resolved by the
register map (20_memory.md R61). -/

namespace Sys2Proof.Machine

/-- The integer of a magnitude and a sign bit; negative zero is zero (R26, R27). -/
def signedValue (neg : Bool) (mag : Nat) : Int :=
  if mag = 0 then 0 else if neg then -(mag : Int) else (mag : Int)

/-- EGCD's input `a` (R26, R133). -/
def State.signedA (s : State) : Int := signedValue s.sign.as s.a

/-- EGCD's input `b` (R26, R133). -/
def State.signedB (s : State) : Int := signedValue s.sign.bs s.b

/-- Where an offset leads: a register of the map, or one of the two bus errors (R61, R66, R67). -/
inductive Target where
  | misaligned
  | unmapped
  | id | cfg | cmd | status | ctrl | rounds | mrs | mrcnt | sign
  /-- Word `i` of a W-bit register. -/
  | word (k : RegIdx) (i : Nat)
deriving DecidableEq, Repr

/-- The index `k` of a W-bit register (R21, R22). -/
def RegIdx.index : RegIdx → Nat
  | .A => 0
  | .B => 1
  | .M => 2
  | .R => 3
  | .X => 4
  | .Y => 5

/-- The operand registers, which the host may write (R21); the others are read-only (R22). -/
def RegIdx.isOperand : RegIdx → Bool
  | .A | .B | .M => true
  | .R | .X | .Y => false

/-- The control registers, offsets 0x0000 to 0x0020; the rest of their 4 KiB is unmapped (R61). -/
def controlTarget (off : Nat) : Target :=
  match off with
  | 0x0000 => .id
  | 0x0004 => .cfg
  | 0x0008 => .cmd
  | 0x000C => .status
  | 0x0010 => .ctrl
  | 0x0014 => .rounds
  | 0x0018 => .mrs
  | 0x001C => .mrcnt
  | 0x0020 => .sign
  | _ => .unmapped

/-- The W-bit register whose stride a number of 4 KiB selects (R61). -/
def strideReg (stride : Nat) : Option RegIdx :=
  match stride with
  | 1 => some .A
  | 2 => some .B
  | 3 => some .M
  | 4 => some .R
  | 5 => some .X
  | 6 => some .Y
  | _ => none

/-- The register map of R61, with the alignment test of R66 first (R64, R65). -/
def target (p : Params) (addr : Offset) : Target :=
  let off := addr.toNat
  if off % 4 ≠ 0 then .misaligned
  else if off < 0x1000 then controlTarget off
  else
    match strideReg (off / 0x1000) with
    | some k => if off % 0x1000 / 4 < p.nw then .word k (off % 0x1000 / 4) else .unmapped
    | none => .unmapped

/-- The offset of word `i` of a W-bit register: `0x1000 * (k + 1) + 4 * i` (R61). -/
def wordOffset (k : RegIdx) (i : Nat) : Offset := BitVec.ofNat 15 (0x1000 * (k.index + 1) + 4 * i)

end Sys2Proof.Machine
end

