-- ==== Sys2Proof/Machine/Flags.lean ====
section
/-! DEFINITION. The control registers as 32-bit words, the error codes, and the block's outputs. The block has no
carry, zero, overflow or negative flag (10_state.md R49); its flags are the fields of `STATUS` and the sign bits. A
reserved bit reads as 0 (R45). -/

namespace Sys2Proof.Machine

/-- A flag as a bit. -/
def bit (f : Bool) : Nat := if f then 1 else 0

/-- `STATUS.ERR`: the code of an error, 0 for none (60_exceptions.md R230). -/
def errCode : Option CmdError → Nat
  | none => 0
  | some .invalidModulus => 1
  | some .notInvertible => 2
  | some .rngFailure => 3
  | some .illegalCommand => 4
  | some .operandRange => 5

/-- `STATUS.ERRF` (R36): no flip-flop of its own. -/
def State.errf (s : State) : Bool := s.status.err.isSome

/-- `STATUS` (R33): `BUSY` 0, `DONE` 1, `ERRF` 2, `PRIME` 3, `WRBUSY` 4, `ERR` 11:8, `OP` 23:16. -/
def State.statusWord (s : State) : Word :=
  BitVec.ofNat 32 (bit s.busy + 2 * bit s.status.done + 4 * bit s.errf + 8 * bit s.status.prime
    + 16 * bit s.status.wrBusy + 2 ^ 8 * errCode s.status.err + 2 ^ 16 * s.status.op.toNat)

/-- `CFG` (R31): `NW` in bits 10:0, `MONT` in bit 16. -/
def cfgWord (p : Params) : Word := BitVec.ofNat 32 (p.nw + 2 ^ 16 * bit p.mont)

/-- `CTRL` (R40): `IE_DONE` 0, `IE_ERR` 1. -/
def State.ctrlWord (s : State) : Word := BitVec.ofNat 32 (bit s.ctrl.ieDone + 2 * bit s.ctrl.ieErr)

/-- `SIGN` (R44): `AS` 0, `BS` 1, `XS` 4, `YS` 5. -/
def State.signWord (s : State) : Word :=
  BitVec.ofNat 32 (bit s.sign.as + 2 * bit s.sign.bs + 16 * bit s.sign.xs + 32 * bit s.sign.ys)

/-- The interrupt output, a level recomputed from the state (R47, R238). -/
def State.irq (s : State) : Bool := (s.status.done && s.ctrl.ieDone) || (s.errf && s.ctrl.ieErr)

/-- The randomness port's outputs: `some` while `rng_req_valid` is 1, with `rng_lo` and `rng_hi` (R74, R48). -/
def State.rngRequest (s : State) : Option RngReq :=
  match s.work with
  | .mrAwait _ _ _ req => some req
  | _ => none

end Sys2Proof.Machine
end

