-- ==== Sys2Proof/Machine/Bus.lean ====
section
/-! DEFINITION. The host's two transactions, `MemRead` and `MemWrite` (20_memory.md R64, R65). They are all the
memory access there is: the block has no memory of its own (R60, R190). -/

namespace Sys2Proof.Machine

/-- What a read of a target answers, `(rdata, err)` (R64). The state is only looked at: no read has a side effect. -/
def State.readTarget (s : State) : Target → Word × Bool
  | .misaligned | .unmapped => (0#32, true)
  | .id => (Config.idWord, false)
  | .cfg => (cfgWord s.params, false)
  | .cmd => (0#32, false)
  | .status => (s.statusWord, false)
  | .ctrl => (s.ctrlWord, false)
  | .rounds => (s.rounds, false)
  | .mrs => (s.mrs, false)
  | .mrcnt => (s.mrcnt, false)
  | .sign => (s.signWord, false)
  | .word k i => (wordOf (s.regValue k) i, false)

/-- `MemRead(addr, 4)` (R64). -/
def State.memRead (s : State) (addr : Offset) : Word × Bool := s.readTarget (target s.params addr)

/-- A write that the block takes only while idle: `CMD`, `ROUNDS`, `SIGN`, operand words (R65). -/
def State.writeIdle (s : State) (v : Word) : Target → State
  | .cmd => s.accept v
  | .rounds => { s with rounds := v }
  | .sign => { s with sign := { s.sign with as := v.getLsbD 0, bs := v.getLsbD 1 } }
  | .word k i => s.setOperand k (withWord (s.regValue k) i v)
  | .misaligned | .unmapped | .id | .cfg | .status | .ctrl | .mrs | .mrcnt => s

/-- `MemWrite(addr, 4, v)` on a resolved target: the state after it and `err`. The order of the tests is R65's. -/
def State.writeTarget (s : State) (v : Word) (t : Target) : State × Bool :=
  match t with
  | .misaligned | .unmapped => (s, true)
  | .id | .cfg | .mrs | .mrcnt => (s, false)
  | .status => (s.clearFlags v, false)
  | .ctrl => ({ s with ctrl := ⟨v.getLsbD 0, v.getLsbD 1⟩ }, false)
  | .cmd | .rounds | .sign => (if s.busy then s.flagWrBusy else s.writeIdle v t, false)
  | .word k _ =>
    (if k.isOperand then (if s.busy then s.flagWrBusy else s.writeIdle v t) else s, false)

/-- `MemWrite(addr, 4, v)` (R65). -/
def State.memWrite (s : State) (addr : Offset) (v : Word) : State × Bool :=
  s.writeTarget v (target s.params addr)

/-- A read transaction as one step: the answer is delivered, nothing else changes (R63, R64). -/
def State.busRead (s : State) (addr : Offset) : State :=
  s.respond (.read (s.memRead addr).1 (s.memRead addr).2)

/-- A write transaction as one step (R63, R65). -/
def State.busWrite (s : State) (addr : Offset) (v : Word) : State :=
  (s.memWrite addr v).1.respond (.write (s.memWrite addr v).2)

end Sys2Proof.Machine
end

