-- ==== Sys2Proof/Machine/Control.lean ====
section
/-! DEFINITION. The command with no arithmetic: NOP (44_control_and_access.md R185). -/

namespace Sys2Proof.Machine

/-- NOP: `outcome = ok(no results)` (R185). -/
def execNop (s : State) : Host.Outcome State Fault Refusal := .next (s.commit (.ok .none))

/-- NOP has no loop and no working value (R29). -/
def tickNop (s : State) : Work := s.work

end Sys2Proof.Machine
end

