-- ==== Sys2Proof/Machine/Euclid.lean ====
section
/-! DEFINITION. EGCD and MODINV (41_egcd_modinv.md R130 to R141). `rawE` with `normalize` is the spec's definition;
the engine runs the loop of R134, whose rows are its working values (10_state.md R29). Division truncates (R131). -/

namespace Sys2Proof.Machine

/-- The recursion of R130 with its depth bounded: `E(0, b) = (b, 0, 1)`. The first argument falls in absolute value
at every call, so `|a|` is depth enough. -/
def rawEFuel : Nat → Int → Int → Int × Int × Int
  | 0, _, b => (b, 0, 1)
  | fuel + 1, a, b =>
    if a = 0 then (b, 0, 1)
    else
      match rawEFuel fuel (b.tmod a) a with
      | (g, x1, y1) => (g, y1 - b.tdiv a * x1, x1)

/-- The raw function `E` of R130. -/
def rawE (a b : Int) : Int × Int × Int := rawEFuel a.natAbs a b

/-- The normalisation `N` of R132: `g` is never negative. -/
def normalize : Int × Int × Int → Int × Int × Int
  | (g, x, y) => if g < 0 then (-g, -x, -y) else (g, x, y)

/-- `egcd(a, b) = N(E(a, b))` (R132). -/
def egcd (a b : Int) : Int × Int × Int := normalize (rawE a b)

/-! ### The iterative form (R134) -/

/-- The rows before the loop of R134. DESIGN CHOICE (log entry 21): `q` is 0 here; R134 gives the quotient no value
before the first iteration, and nothing reads it. -/
def EuclidWork.start (a b : Int) : EuclidWork where
  oldR := b
  r := a
  oldS := 1
  s := 0
  oldT := 0
  t := 1
  q := 0

/-- One iteration of the loop of R134. -/
def EuclidWork.next (w : EuclidWork) : EuclidWork where
  oldR := w.r
  r := w.oldR - w.oldR.tdiv w.r * w.r
  oldS := w.s
  s := w.oldS - w.oldR.tdiv w.r * w.s
  oldT := w.t
  t := w.oldT - w.oldR.tdiv w.r * w.t
  q := w.oldR.tdiv w.r

/-- The loop of R134 with its number of iterations bounded by `fuel`. -/
def euclidLoop : Nat → EuclidWork → EuclidWork
  | 0, w => w
  | fuel + 1, w => if w.r = 0 then w else euclidLoop fuel w.next

/-- The triple the loop ends with: `N(old_r, old_t, old_s)`, `x` the coefficient of `a` and `y` that of `b` (R134).
`|r|` falls at every iteration, so it is iterations enough. -/
def EuclidWork.finish (w : EuclidWork) : Int × Int × Int :=
  let e := euclidLoop w.r.natAbs w
  normalize (e.oldR, e.oldT, e.oldS)

/-- Where the Euclidean loop of the command in flight stands, `start` where it has not begun. -/
def State.euclidRows (s : State) (start : EuclidWork) : EuclidWork :=
  match s.work with
  | .euclid w => w
  | _ => start

/-- One engine step of the Euclidean loop; when the remainder is 0 only completion is left. -/
def State.tickEuclid (s : State) (start : EuclidWork) : Work :=
  match s.work with
  | .euclid w => if w.r = 0 then .euclid w else .euclid w.next
  | _ => .euclid start

/-! ### EGCD -/

/-- The engine's rows for EGCD: signed `a`, signed `b` (R133). -/
def egcdStart (s : State) : EuclidWork := EuclidWork.start s.signedA s.signedB

/-- R133: EGCD cannot fail. -/
def egcdOutcome (s : State) : CmdOutcome :=
  match (s.euclidRows (egcdStart s)).finish with
  | (g, x, y) => .ok (.bezout g.toNat x y)

/-- EGCD (R133). -/
def execEgcd (s : State) : Host.Outcome State Fault Refusal := .next (s.commit (egcdOutcome s))

/-- One engine step of EGCD (R134). -/
def tickEgcd (s : State) : Work := s.tickEuclid (egcdStart s)

/-! ### MODINV -/

/-- The engine's rows for MODINV: the modulus first, as in the source's `egcd(φ(n), e)` (R138). -/
def modinvStart (s : State) : EuclidWork := EuclidWork.start (s.m : Int) (s.a : Int)

/-- `emod(y, m)` as a natural number (00_scope.md section 6.1). -/
def emodNat (y : Int) (m : Nat) : Nat := (y.emod (m : Int)).toNat

/-- R138: `InvalidModulus` first, then `NotInvertible`, else `R <- emod(y, M)`. -/
def modinvOutcome (s : State) : CmdOutcome :=
  if s.m = 0 then .error .invalidModulus
  else
    match (s.euclidRows (modinvStart s)).finish with
    | (g, _, y) => if g = 1 then .ok (.value (emodNat y s.m)) else .error .notInvertible

/-- MODINV (R138). -/
def execModinv (s : State) : Host.Outcome State Fault Refusal := .next (s.commit (modinvOutcome s))

/-- One engine step of MODINV (R134); with `M = 0` nothing is computed. -/
def tickModinv (s : State) : Work := if s.m = 0 then s.work else s.tickEuclid (modinvStart s)

end Sys2Proof.Machine
end

