-- ==== Sys2Proof/Machine/Modular.lean ====
section
/-! DEFINITION. MODMUL and MODEXP (40_modmul_modexp.md R110 to R115). A `tick…` is one iteration of the engine
inside a command, hidden from the host (10_state.md R29); an `exec…` finishes the command from wherever the engine
stands and commits. -/

namespace Sys2Proof.Machine

/-! ### MODMUL -/

/-- The exact product `A * B` in the multiplier (R110), formed already or not. -/
def State.productAB (s : State) : Nat :=
  match s.work with
  | .product p => p
  | _ => s.a * s.b

/-- R111: the modulus is tested before anything else; `R <- (A * B) mod M`. -/
def modmulOutcome (s : State) : CmdOutcome :=
  if s.m = 0 then .error .invalidModulus else .ok (.value (s.productAB % s.m))

/-- MODMUL (R111). -/
def execModmul (s : State) : Host.Outcome State Fault Refusal := .next (s.commit (modmulOutcome s))

/-- The engine forms the product, up to 2W bits wide (R29, R110); with `M = 0` nothing is computed (R231). That the
product is a step of its own is the model's choice (log entry 4). -/
def tickModmul (s : State) : Work := if s.m = 0 then s.work else .product s.productAB

/-! ### The exponentiation loop, shared by MODEXP and the Miller–Rabin round -/

/-- The values before the loop of R113: `acc = 1 mod m`, `bp = base mod m`, `ex = exponent`. -/
def PowWork.start (base exponent m : Nat) : PowWork := ⟨1 % m, base % m, exponent⟩

/-- One iteration of the loop of R113: multiply on a 1 bit, always square, shift right by one bit. -/
def PowWork.next (m : Nat) (w : PowWork) : PowWork where
  acc := if w.ex % 2 = 1 then mulmod w.acc w.bp m else w.acc
  bp := mulmod w.bp w.bp m
  ex := w.ex / 2

/-- The loop of R113 with its number of iterations bounded by `fuel`. -/
def powLoop (m : Nat) : Nat → PowWork → PowWork
  | 0, w => w
  | fuel + 1, w => if w.ex = 0 then w else powLoop m fuel (w.next m)

/-- `acc` when the loop ends; `bitlen(ex)` iterations are exactly what is left of it (R115). -/
def PowWork.finish (m : Nat) (w : PowWork) : Nat := (powLoop m (bitlen w.ex) w).acc

/-- `base ^ exponent mod m` as R113 computes it. -/
def modexp (base exponent m : Nat) : Nat := (PowWork.start base exponent m).finish m

/-! ### MODEXP -/

/-- The result of the loop, from where it stands. -/
def State.powResult (s : State) : Nat :=
  match s.work with
  | .pow w => w.finish s.m
  | _ => modexp s.a s.b s.m

/-- R113: the modulus is tested first, also when `B = 0` (R114). -/
def modexpOutcome (s : State) : CmdOutcome :=
  if s.m = 0 then .error .invalidModulus else .ok (.value s.powResult)

/-- MODEXP (R112). -/
def execModexp (s : State) : Host.Outcome State Fault Refusal := .next (s.commit (modexpOutcome s))

/-- One engine step of MODEXP: the start values, then an iteration; at the end only completion is left. -/
def tickModexp (s : State) : Work :=
  match s.work with
  | .pow w => if w.ex = 0 then .pow w else .pow (w.next s.m)
  | w => if s.m = 0 then w else .pow (PowWork.start s.a s.b s.m)

end Sys2Proof.Machine
end

