-- ==== Sys2Proof/Machine/Montgomery.lean ====
section
/-! DEFINITION. MONTMUL (43_montmul.md R175 to R177), the one command whose result depends on `W`. -/

namespace Sys2Proof.Machine

/-- `Rm = 2^W` of an instance (R175). -/
def montR (p : Params) : Nat := 2 ^ p.width

/-- `Rinv`: for odd `m`, the number below `m` with `(Rm * Rinv) mod m = 1 mod m` (R175), found with the Euclidean
unit: the coefficient of `Rm` in `egcd(m, Rm)`, reduced. -/
def montRinv (p : Params) (m : Nat) : Nat :=
  match egcd (m : Int) (montR p : Int) with
  | (_, _, y) => emodNat y m

/-- R176: the command exists only when `MONT = 1` (R93); a zero or even modulus is `InvalidModulus`; else
`R <- (A * B * Rinv) mod M`. -/
def montmulOutcome (s : State) : CmdOutcome :=
  if s.params.mont = false then .error .illegalCommand
  else if s.m = 0 ∨ s.m % 2 = 0 then .error .invalidModulus
  else .ok (.value (s.productAB * montRinv s.params s.m % s.m))

/-- MONTMUL (R176). -/
def execMontmul (s : State) : Host.Outcome State Fault Refusal := .next (s.commit (montmulOutcome s))

/-- The engine forms the product, up to 2W bits wide (R29); where the command ends with an error nothing is computed
(R231). That the product is a step of its own is the model's choice (log entry 4). -/
def tickMontmul (s : State) : Work :=
  if s.params.mont = true ∧ s.m % 2 = 1 then .product s.productAB else s.work

end Sys2Proof.Machine
end

