-- ==== Sys2Proof/Machine/Prime.lean ====
section
/-! DEFINITION. MRTEST and MRWIT (42_miller_rabin.md R150 to R163). The witnesses of MRTEST are the answers of the
randomness source: input, read from the front of the state's script (20_memory.md R75). -/

namespace Sys2Proof.Machine

/-- The deterministic verdicts, in this order: `n <= 1`, `n = 2`, `n` even (R151), then `n = 3` (R152); `none` where
the rounds decide. -/
def smallVerdict (n : Nat) : Option Bool :=
  if n ≤ 1 then some false
  else if n = 2 then some true
  else if n % 2 = 0 then some false
  else if n = 3 then some true
  else none

/-- The loop of R153 with its number of halvings bounded by `fuel`. -/
def factorLoop : Nat → Nat → Nat → Nat × Nat
  | 0, d, e => (d, e)
  | fuel + 1, d, e => if d % 2 = 0 then factorLoop fuel (d / 2) (e + 1) else (d, e)

/-- Goes on halving from `(d, s)`; a number of `k` bits can be halved fewer than `k` times while even. -/
def finishFactor (d e : Nat) : Nat × Nat := factorLoop (bitlen d) d e

/-- `(d, s)` with `n - 1 = 2^s * d`, `d` odd (R153). -/
def factor (n : Nat) : Nat × Nat := finishFactor (n - 1) 0

/-- At most `k` squarings of `x`, looking for `n - 1` after each; no early stop at 1 (R155). -/
def squareLoop (n : Nat) : Nat → Nat → Bool
  | 0, _ => false
  | k + 1, x => if mulmod x x n = n - 1 then true else squareLoop n k (mulmod x x n)

/-- A round once `x = a^d mod n` is known (R155). -/
def roundTail (n e x : Nat) : Bool := if x = 1 ∨ x = n - 1 then true else squareLoop n (e - 1) x

/-- `round(n, d, s, a)` (R155): true where this witness does not prove `n` composite. -/
def mrRound (n d e a : Nat) : Bool := roundTail n e (modexp a d n)

/-- The request of every round (R154, R74). -/
def witnessReq (n : Nat) : RngReq := ⟨2, n - 2⟩

/-! ### The rounds of MRTEST -/

/-- How far the rounds of MRTEST come with the answers at the front of the input; `rest` is the input that is left. -/
inductive MrProgress where
  /-- The verdict after `cnt` rounds that passed (R156). -/
  | decided (prime : Bool) (e cnt : Nat) (rest : List Event)
  /-- A draw failed: `RngFailure`, not retried (R159). -/
  | failed (rest : List Event)
  /-- Round `i` waits for its draw (R48, R272). -/
  | waiting (d e i : Nat) (rest : List Event)
deriving DecidableEq, Repr

/-- The loop of R156 from round `i`: one draw a round, requested only after the previous round has passed (R154). The
engine waits at the first event that is not an answer. -/
def mrRounds (n t d e : Nat) : Nat → List Event → MrProgress
  | i, .answer ans :: rest =>
    if t ≤ i then .decided true e t (.answer ans :: rest)
    else
      match drawValue (witnessReq n) ans with
      | none => .failed rest
      | some a => if mrRound n d e a then mrRounds n t d e (i + 1) rest else .decided false e i rest
  | i, rest => if t ≤ i then .decided true e t rest else .waiting d e i rest

/-- What follows round `i`: the next one, or "return false immediately" (R156). -/
def afterRound (n t d e i : Nat) (passed : Bool) (rest : List Event) : MrProgress :=
  if passed then mrRounds n t d e (i + 1) rest else .decided false e i rest

/-- MRTEST for odd `n >= 5`, from where the engine stands. -/
def mrResume (n t : Nat) (rest : List Event) : Work → MrProgress
  | .mrFactor d e => mrRounds n t (finishFactor d e).1 (finishFactor d e).2 0 rest
  | .mrAwait d e i _ => mrRounds n t d e i rest
  | .mrPow d e i _ w => afterRound n t d e i (roundTail n e (w.finish n)) rest
  | .mrSquare d e i _ x j => afterRound n t d e i (squareLoop n (e - 1 - j) x) rest
  | .fresh | .product _ | .pow _ | .euclid _ => mrRounds n t (factor n).1 (factor n).2 0 rest

/-- MRTEST (R157): completes where every draw it needs is answered (R272), else holds its request and stays busy. -/
def execMrtest (s : State) : Host.Outcome State Fault Refusal :=
  match smallVerdict s.m with
  | some v => .next (s.commit (.ok (.verdict v 0 0)))
  | none =>
    match mrResume s.m s.rounds.toNat s.script s.work with
    | .decided v e cnt rest => .next ((s.withScript rest).commit (.ok (.verdict v e cnt)))
    | .failed rest => .next ((s.withScript rest).commit (.error .rngFailure))
    | .waiting d e i rest => .next ((s.withScript rest).withWork (.mrAwait d e i (witnessReq s.m)))

/-! ### MRWIT -/

/-- Whether the one round of MRWIT passes, from where the engine stands, with `s` (R155, R160). -/
def witnessRound (n a : Nat) : Work → Bool × Nat
  | .mrFactor d e => (mrRound n (finishFactor d e).1 (finishFactor d e).2 a, (finishFactor d e).2)
  | .mrPow _ e _ _ w => (roundTail n e (w.finish n), e)
  | .mrSquare _ e _ _ x j => (squareLoop n (e - 1 - j) x, e)
  | .fresh | .product _ | .pow _ | .euclid _ | .mrAwait _ _ _ _ =>
    (mrRound n (factor n).1 (factor n).2 a, (factor n).2)

/-- R160: the deterministic verdicts, which do not look at `A`; then the witness range; then one round. -/
def mrwitOutcome (s : State) : CmdOutcome :=
  match smallVerdict s.m with
  | some v => .ok (.verdict v 0 0)
  | none =>
    if s.a < 2 ∨ s.m - 2 < s.a then .error .operandRange
    else
      match witnessRound s.m s.a s.work with
      | (ok, e) => .ok (.verdict ok e (if ok then 1 else 0))

/-- MRWIT (R160). -/
def execMrwit (s : State) : Host.Outcome State Fault Refusal := .next (s.commit (mrwitOutcome s))

/-! ### Engine steps inside a test -/

/-- After a round that passed: the next round's request is issued, or only completion is left. -/
def nextRound (n t d e i : Nat) (here : Work) : Work :=
  if i + 1 < t then .mrAwait d e (i + 1) (witnessReq n) else here

/-- One engine step inside a round (R155); where the round has failed, or the last has passed, or a draw is awaited
(R48), nothing moves. -/
def tickRound (n t : Nat) : Work → Work
  | .mrPow d e i a w =>
    if w.ex ≠ 0 then .mrPow d e i a (w.next n)
    else if w.acc = 1 ∨ w.acc = n - 1 then nextRound n t d e i (.mrPow d e i a w)
    else .mrSquare d e i a w.acc 0
  | .mrSquare d e i a x j =>
    if e - 1 ≤ j then .mrSquare d e i a x j
    else if mulmod x x n = n - 1 then nextRound n t d e i (.mrSquare d e i a x j)
    else .mrSquare d e i a (mulmod x x n) (j + 1)
  | w => w

/-- The first value after the factoring: for MRTEST the first request, if there is a round at all (R158). -/
def firstDraw (n t d e : Nat) : Work := if 0 < t then .mrAwait d e 0 (witnessReq n) else .mrFactor d e

/-- One engine step of MRTEST. -/
def tickMrtest (s : State) : Work :=
  match smallVerdict s.m with
  | some _ => s.work
  | none =>
    match s.work with
    | .mrFactor d e => if d % 2 = 0 then .mrFactor (d / 2) (e + 1) else firstDraw s.m s.rounds.toNat d e
    | .fresh => .mrFactor (s.m - 1) 0
    | w => tickRound s.m s.rounds.toNat w

/-- One engine step of MRWIT: the same round, its witness from `A` and no other after it (R160). -/
def tickMrwit (s : State) : Work :=
  match smallVerdict s.m with
  | some _ => s.work
  | none =>
    if s.a < 2 ∨ s.m - 2 < s.a then s.work
    else
      match s.work with
      | .mrFactor d e =>
        if d % 2 = 0 then .mrFactor (d / 2) (e + 1) else .mrPow d e 0 s.a (PowWork.start s.a d s.m)
      | .fresh => .mrFactor (s.m - 1) 0
      | w => tickRound s.m 1 w

/-- The engine samples the answer to its pending request (R75): a draw that fails ends the command there (R231); an
answer when no request is pending is not sampled (R74, R262; log entry 6). DESIGN CHOICE (log entry 22): whatever answer
comes while a request is pending is its answer, also one that is late for a request a reset has withdrawn. -/
def State.sampleAnswer (s : State) (ans : RngAnswer) : State :=
  match s.work with
  | .mrAwait d e i req =>
    match drawValue req ans with
    | none => s.commit (.error .rngFailure)
    | some a => s.withWork (.mrPow d e i a (PowWork.start a d s.m))
  | _ => s

end Sys2Proof.Machine
end

