-- ==== Sys2Proof/Machine/Engine.lean ====
section
/-! DEFINITION. The engine between acceptance and completion, and what one event does to the block: the engine
decodes the latched word (44_control_and_access.md R187), the host's transactions and reset are atomic steps of their
own (20_memory.md R63), and the order of all of them is the order of the script. -/

namespace Sys2Proof.Machine

/-- The engine runs the latched word `c` on: `IllegalCommand` by the decode, before any operand is looked at (R231),
else the command. -/
def runWord (c : Word) (s : State) : Host.Outcome State Fault Refusal :=
  match decode c with
  | .ok i => exec i s
  | .error _ => .next (s.commit (.error .illegalCommand))

/-- The engine's turn: nothing while `IDLE` (60_exceptions.md R248). -/
def engineTurn (s : State) : Host.Outcome State Fault Refusal :=
  match s.phase with
  | .idle => .next s
  | .run c => runWord c s

/-- One engine step of a command, by its family's definition. -/
def tickInstr (i : Instr) (s : State) : Work :=
  match i with
  | .nop => tickNop s
  | .modmul => tickModmul s
  | .modexp => tickModexp s
  | .egcd => tickEgcd s
  | .modinv => tickModinv s
  | .mrtest => tickMrtest s
  | .mrwit => tickMrwit s
  | .montmul => tickMontmul s

/-- One iteration of the engine: it moves the working values of the command in flight and nothing else (R29, R73). -/
def State.engineTick (s : State) : State :=
  match s.phase with
  | .idle => s
  | .run c =>
    match decode c with
    | .ok i => s.withWork (tickInstr i s)
    | .error _ => s

/-- What the next event does. With no event left the engine has its turn: R272's fairness (log entry 3). -/
def nextEvent (s : State) : Host.Outcome State Fault Refusal :=
  match s.script with
  | [] => engineTurn s
  | .engine :: rest => engineTurn (s.withScript rest)
  | .tick :: rest => .next (s.withScript rest).engineTick
  | .answer ans :: rest => .next ((s.withScript rest).sampleAnswer ans)
  | .read addr :: rest => .next ((s.withScript rest).busRead addr)
  | .write addr v :: rest => .next ((s.withScript rest).busWrite addr v)
  | .reset :: rest => .next (s.withScript rest).reinit

/-- `s` after the host's write of the word `c` to `CMD` (R186), with the engine's turn next. -/
def State.withCommand (s : State) (c : Word) : State :=
  (s.accept c).withScript (.engine :: s.script)

end Sys2Proof.Machine
end

