-- ==== Sys2Proof/Machine/Step.lean ====
section
/-! DEFINITION. The step function, and where a command word comes from. -/

namespace Sys2Proof.Machine

/-- One step of the block with its input: the next event, or the engine's turn. -/
def step (s : State) : Host.Outcome State Fault Refusal := nextEvent s

/-- The block fetches nothing (10_state.md R28, 20_memory.md R78): its next command is the word the host has written
to `CMD`. So that word is accepted and the engine's turn is the next event (log entry 12). -/
def State.withFetchWord (s : State) (nbits w : Nat) : State :=
  s.withCommand (BitVec.ofNat 32 (w % 2 ^ nbits))

end Sys2Proof.Machine
end

