-- ==== Sys2Proof/Machine/Script.lean ====
section
/-! DEFINITION. The spec's notation for sequences of host transactions (30_encoding.md R97, R98). It is not something
the block parses: each statement is a list of events. A `WAIT` stands for as many reads of `STATUS` as it takes
(70_reset_and_hazards.md R278), so it has that number as an argument. -/

namespace Sys2Proof.Machine

/-- The control registers a statement names (R97). -/
inductive CtlReg where
  | id | cfg | cmd | status | ctrl | rounds | mrs | mrcnt | sign
deriving DecidableEq, Repr

/-- `offset(reg)` of a control register (R61). -/
def CtlReg.offset : CtlReg → Offset
  | .id => 0x0000#15
  | .cfg => 0x0004#15
  | .cmd => 0x0008#15
  | .status => 0x000C#15
  | .ctrl => 0x0010#15
  | .rounds => 0x0014#15
  | .mrs => 0x0018#15
  | .mrcnt => 0x001C#15
  | .sign => 0x0020#15

/-- `WR <reg>, <value>` (R97). -/
def wr (reg : CtlReg) (v : Word) : Event := .write reg.offset v

/-- `RD <reg>` (R97). -/
def rd (reg : CtlReg) : Event := .read reg.offset

/-- `<MNEMONIC>` (R97). -/
def cmd (i : Instr) : Event := wr .cmd (encode i)

/-- `LDOP <reg>, <v>` on an instance with `nw` words (R98). -/
def ldop (nw : Nat) (k : RegIdx) (v : Nat) : List Event :=
  (List.range nw).map fun i => .write (wordOffset k i) (wordOf v i)

/-- `RDOP <reg>` (R98). -/
def rdop (nw : Nat) (k : RegIdx) : List Event :=
  (List.range nw).map fun i => .read (wordOffset k i)

/-- `LDS <a>, <b>` (R98). -/
def lds (nw : Nat) (a b : Int) : List Event :=
  ldop nw .A a.natAbs ++ ldop nw .B b.natAbs ++
    [wr .sign (BitVec.ofNat 32 (bit (decide (a < 0)) + 2 * bit (decide (b < 0))))]

/-- `WAIT`, as `polls` reads of `STATUS` (R98, R278). -/
def waitDone (polls : Nat) : List Event := List.replicate polls (rd .status)

/-- `RUN <MNEMONIC>` (R98): the command, `early` reads that find it busy, the engine with the answers it draws, and
the read that finds `DONE`. -/
def runCmd (i : Instr) (early : Nat) (draws : List RngAnswer) : List Event :=
  cmd i :: (waitDone early ++ .engine :: (draws.map .answer ++ waitDone 1))

/-- `ACK` (R98, R240). -/
def ack : Event := wr .status 0x00000006#32

/-- The value the host assembles from the words of a register, word 0 first: `sum word_i * 2^(32*i)` (R94, R98). -/
def assemble : List Word → Nat
  | [] => 0
  | w :: rest => w.toNat + 2 ^ 32 * assemble rest

/-! ### The source's functions in the notation (R100), each up to the reads of its results -/

/-- `mod_pow(b, e, m)`. -/
def modPowCall (nw early b e m : Nat) : List Event :=
  ldop nw .A b ++ ldop nw .B e ++ ldop nw .M m ++ runCmd .modexp early [] ++ rdop nw .R

/-- `egcd(a, b)`. -/
def egcdCall (nw early : Nat) (a b : Int) : List Event :=
  lds nw a b ++ runCmd .egcd early [] ++ rdop nw .R ++ rdop nw .X ++ rdop nw .Y ++ [rd .sign]

/-- `is_probable_prime(n, t)`, with the answers its draws get. -/
def isProbablePrimeCall (nw early n : Nat) (t : Word) (draws : List RngAnswer) : List Event :=
  ldop nw .M n ++ [wr .rounds t] ++ runCmd .mrtest early draws ++ [rd .status]

end Sys2Proof.Machine
end

