-- ==== Sys2Proof/WellFormed.lean ====
section
/-! DEFINITION. Which parameters an instance may have (00_scope.md R9) and which commands exist on it (R10, R93). -/

namespace Sys2Proof

/-- R9: `W` is a multiple of 32 with `32 <= W <= 32768`, so `NW` is 1 to 1024 (R31). -/
def Params.wf (p : Params) : Bool := decide (1 ≤ p.nw ∧ p.nw ≤ 1024)

/-- The command exists on an instance with these parameters: R93, MONTMUL is illegal when `MONT = 0`. -/
def Instr.wf (p : Params) : Instr → Bool
  | .nop | .modmul | .modexp | .egcd | .modinv | .mrtest | .mrwit => true
  | .montmul => p.mont

end Sys2Proof
end

