-- ==== Sys2Proof/Safety.lean ====
section
/-! DEFINITION. The terms claims use: the invariant of the block, and which states begin or end a run
(70_reset_and_hazards.md R278, R279). -/

namespace Sys2Proof.Machine

/-! ### Runs -/

/-- The events of a host script (R278): its transactions, and reset, "a host-side event of the script". -/
def Event.isHost : Event → Bool
  | .read _ | .write _ _ | .reset => true
  | .answer _ | .tick | .engine => false

/-- R278: the host has received the answer to its last transaction, no command is in flight, no request is pending.
What else is still to come (turns of the engine, answers) does not matter. -/
def State.final (s : State) : Prop :=
  (∀ ev ∈ s.script, ev.isHost = false) ∧ s.phase = .idle ∧ s.rngRequest = none

/-- What can come while the host is inside a `WAIT` and no answer does: polls of `STATUS` (R98) and turns of the
engine. -/
def Event.isPoll : Event → Bool
  | .read addr => decide (addr = 0x000C#15)
  | .tick | .engine => true
  | .write _ _ | .reset | .answer _ => false

/-- R278, R272: a draw of MRTEST is awaited, no answer comes, and the host does nothing but poll. -/
def State.stuck (s : State) : Prop :=
  (∀ ev ∈ s.script, ev.isPoll = true) ∧ s.phase = .run (encode .mrtest) ∧ smallVerdict s.m = none ∧
    ∃ d e i, s.work = .mrAwait d e i (witnessReq s.m) ∧ i < s.rounds.toNat

/-- R279: the rules hold from any state with `phase = IDLE` and no request pending. -/
def State.legalStart (s : State) : Prop := s.phase = .idle ∧ s.rngRequest = none

/-! ### The invariant -/

/-- The instance is legal (R9) and its W-bit registers hold W bits (R25). -/
structure State.Sized (s : State) : Prop where
  params : s.params.wf = true
  a : s.a < 2 ^ s.params.width
  b : s.b < 2 ^ s.params.width
  m : s.m < 2 ^ s.params.width
  r : s.r < 2 ^ s.params.width
  x : s.x < 2 ^ s.params.width
  y : s.y < 2 ^ s.params.width

/-- The loop invariant of R113, with `k` the number of iterations done. -/
def PowWork.Reached (base exponent m : Nat) (w : PowWork) : Prop :=
  ∃ k, w.bp = base ^ 2 ^ k % m ∧ w.acc = base ^ (exponent % 2 ^ k) % m ∧ w.ex = exponent / 2 ^ k

/-- One iteration of the loop of R134, which runs while `r != 0`. -/
def EuclidWork.iterate (w : EuclidWork) : EuclidWork := if w.r = 0 then w else w.next

/-- The rows are those after some number of iterations of R134. -/
def EuclidWork.Reached (start w : EuclidWork) : Prop := ∃ k, w = EuclidWork.iterate^[k] start

/-- `2^s * d = n - 1` for the odd `n >= 5` of a test that has got past its deterministic verdicts (R153). -/
def Factored (n d e : Nat) : Prop := smallVerdict n = none ∧ 2 ^ e * d = n - 1

/-- The command in flight is the one with this word. -/
def State.running (s : State) (i : Instr) : Prop := s.phase = .run (encode i)

/-- Round `i` with witness `a` is one the command can be in: MRWIT has one round, with the witness of `A` (R154,
R160). -/
def State.roundOf (s : State) (i a : Nat) : Prop :=
  ((s.running .mrtest ∧ i < s.rounds.toNat) ∨ (s.running .mrwit ∧ i = 0 ∧ a = s.a)) ∧ 2 ≤ a ∧ a ≤ s.m - 2

/-- The working values belong to the command in flight and are values its algorithm passes through (R29). -/
def State.WorkOk (s : State) : Prop :=
  match s.work with
  | .fresh => True
  | .product p =>
    ((s.running .modmul ∧ s.m ≠ 0) ∨ (s.running .montmul ∧ s.params.mont = true ∧ s.m % 2 = 1)) ∧ p = s.a * s.b
  | .pow w => s.running .modexp ∧ 0 < s.m ∧ w.Reached s.a s.b s.m
  | .euclid w =>
    (s.running .egcd ∧ EuclidWork.Reached (egcdStart s) w) ∨
      (s.running .modinv ∧ 0 < s.m ∧ EuclidWork.Reached (modinvStart s) w)
  | .mrFactor d e => (s.running .mrtest ∨ s.running .mrwit) ∧ Factored s.m d e
  | .mrAwait d e i req =>
    s.running .mrtest ∧ i < s.rounds.toNat ∧ req = witnessReq s.m ∧ Factored s.m d e ∧ d % 2 = 1
  | .mrPow d e i a w => s.roundOf i a ∧ Factored s.m d e ∧ d % 2 = 1 ∧ w.Reached a d s.m
  | .mrSquare d e i a x j =>
    s.roundOf i a ∧ Factored s.m d e ∧ d % 2 = 1 ∧ j ≤ e - 1 ∧ x = a ^ (2 ^ j * d) % s.m ∧
      a ^ d % s.m ≠ 1 ∧ ∀ k, k ≤ j → a ^ (2 ^ k * d) % s.m ≠ s.m - 1

/-- What holds of the block in every state a run reaches. -/
structure State.Inv (s : State) : Prop where
  /-- R9, R25, R137. -/
  sized : s.Sized
  /-- R27: the engine never produces negative zero. -/
  xSign : s.x = 0 → s.sign.xs = false
  ySign : s.y = 0 → s.sign.ys = false
  /-- R42: `0 <= MRS <= W - 1`. -/
  mrs : s.mrs.toNat < s.params.width
  /-- R37: after an error `PRIME` is 0. -/
  errPrime : s.status.err ≠ none → s.status.prime = false
  /-- R73, R39: while a command runs, `DONE`, `ERR`, `PRIME` read 0 and `OP` is its opcode byte. -/
  busy : ∀ c, s.phase = .run c →
    s.status.done = false ∧ s.status.err = none ∧ s.status.prime = false ∧ s.status.op = cmdOp c
  /-- R29: no working value survives completion. -/
  idle : s.phase = .idle → s.work = .fresh
  /-- R29, R48. -/
  work : s.WorkOk

/-! ### Terms of the statements -/

/-- R155 as mathematics: with `n - 1 = 2^e * d`, the witness does not prove `n` composite. -/
def WitnessPasses (n d e a : Nat) : Prop := a ^ d % n = 1 ∨ ∃ j, j < e ∧ a ^ (2 ^ j * d) % n = n - 1

/-- The answer is a value of the range asked for by a round on `n` (R75, R154). -/
def InRange (n : Nat) (ans : RngAnswer) : Prop := ans.fail = false ∧ 2 ≤ ans.val ∧ ans.val ≤ n - 2

/-- MRTEST is about to draw for round `i`: just accepted, or waiting with its request. -/
def State.atRound (s : State) (d e i : Nat) : Prop :=
  (s.work = .fresh ∧ i = 0) ∨ s.work = .mrAwait d e i (witnessReq s.m)

/-- The offsets a completion may change the reading of: `STATUS`, and the "w" columns of R23. -/
def mayWrite : Instr → Target → Bool
  | _, .status => true
  | .modmul, .word .R _ | .modexp, .word .R _ | .modinv, .word .R _ | .montmul, .word .R _ => true
  | .egcd, .word .R _ | .egcd, .word .X _ | .egcd, .word .Y _ | .egcd, .sign => true
  | .mrtest, .mrs | .mrtest, .mrcnt | .mrwit, .mrs | .mrwit, .mrcnt => true
  | _, _ => false

/-- Two states agree on what the command reads: the "r" columns of R23; MRTEST also reads the randomness port (R187),
MONTMUL depends on the instance (R10, R177). -/
def ReadsAgree (s u : State) : Instr → Prop
  | .nop => True
  | .modmul | .modexp => s.a = u.a ∧ s.b = u.b ∧ s.m = u.m
  | .montmul => s.a = u.a ∧ s.b = u.b ∧ s.m = u.m ∧ s.params = u.params
  | .egcd => s.a = u.a ∧ s.b = u.b ∧ s.sign.as = u.sign.as ∧ s.sign.bs = u.sign.bs
  | .modinv | .mrwit => s.a = u.a ∧ s.m = u.m
  | .mrtest => s.m = u.m ∧ s.rounds = u.rounds ∧ s.script = u.script

/-- Two states agree on what a command that ended in them has written: its error, and on success its results. -/
def ResultsAgree (t v : State) (i : Instr) : Prop :=
  t.status.err = v.status.err ∧
    (t.status.err = none →
      match i with
      | .nop => True
      | .modmul | .modexp | .modinv | .montmul => t.r = v.r
      | .egcd => t.r = v.r ∧ t.x = v.x ∧ t.y = v.y ∧ t.sign.xs = v.sign.xs ∧ t.sign.ys = v.sign.ys
      | .mrtest | .mrwit => t.status.prime = v.status.prime ∧ t.mrs = v.mrs ∧ t.mrcnt = v.mrcnt)

end Sys2Proof.Machine
end

