-- ==== Sys2Proof/Certificates/Slice0/Obligations.lean ====
section
/-! DEFINITION. The statements about the block. A statement about `exec i s` is about the engine finishing the command
`i` in the state `s`; where the result is stated as a record update of `s`, everything not named in it is unchanged. -/

open Sys2Proof Sys2Proof.Machine

/-! ### Encoding -/

/-- R91: the eight words of the opcode map, and their neighbours of R92 and R93. -/
def Obligations.DecodeReadsTheOpcodeMap : Prop :=
  decode 0x00000000#32 = .ok .nop ∧ decode 0x00000001#32 = .ok .modmul ∧ decode 0x00000002#32 = .ok .modexp ∧
    decode 0x00000003#32 = .ok .egcd ∧ decode 0x00000004#32 = .ok .modinv ∧ decode 0x00000005#32 = .ok .mrtest ∧
    decode 0x00000006#32 = .ok .mrwit ∧ decode 0x00000007#32 = .ok .montmul ∧
    decode 0x00000008#32 = .error .reservedOpcode ∧ decode 0x000000FF#32 = .error .reservedOpcode ∧
    decode 0x00000100#32 = .error .reservedBits ∧ decode 0x00000102#32 = .error .reservedBits ∧
    decode 0x80000000#32 = .error .reservedBits

/-- Decoding an encoded command gives it back, and R91, "each instruction is one single word": no other word decodes to
it. -/
def Obligations.DecodeAndEncodeAgree : Prop :=
  (∀ i : Instr, decode (encode i) = .ok i ∧ decodeTableWord 32 (encode i).toNat = some i) ∧
    ∀ (c : Word) (i : Instr), decode c = .ok i → c = encode i

/-- R92, R93: the engine's turn with a word in flight that is no command of this instance ends it with
`IllegalCommand`, and nothing else changes; the turn is an event, or the script is empty (the model's script: log
entry 3). -/
def Obligations.OtherWordsEndInIllegalCommand : Prop :=
  ∀ (s : State) (c : Word), s.phase = .run c → (∀ i : Instr, i.wf s.params = true → c ≠ encode i) →
    (∀ rest, step (s.withScript (.engine :: rest)) = .next { s with
      status := { s.status with err := some .illegalCommand, done := true }
      phase := .idle
      work := .fresh
      script := rest }) ∧
    step (s.withScript []) = .next { s with
      status := { s.status with err := some .illegalCommand, done := true }
      phase := .idle
      work := .fresh
      script := [] }

/-! ### The step -/

/-- The engine's turn with a word in flight that decodes to `i` is `exec i`, whether the turn is an event of the script
or the script is empty; an idle block does nothing (the model's script: log entry 3). -/
def Obligations.StepRunsTheDecodedCommand : Prop :=
  (∀ (s : State) (c : Word) (i : Instr), s.phase = .run c → decode c = .ok i →
      (s.script = [] → step s = exec i s) ∧
      ∀ rest, s.script = .engine :: rest → step s = exec i (s.withScript rest)) ∧
    ∀ s : State, s.phase = .idle →
      (s.script = [] → step s = .next s) ∧
      ∀ rest, s.script = .engine :: rest → step s = .next (s.withScript rest)

/-- R234: no error stops the block; a bus error is an answer (R233), an idle block does nothing (R248), and an
unanswered draw keeps it busy (R48, R272). That the last two are steps to the same state is log entry 9. -/
def Obligations.EveryStepHasANextState : Prop :=
  ∀ s : State, ∃ t, step s = .next t

/-- R28, R35: the phase goes to `RUN(c)` by a write of `c` to `CMD` while idle, and back by a completion, which sets
`DONE`, or by reset; no other transition. -/
def Obligations.PhaseTransitions : Prop :=
  ∀ s t : State, step s = .next t →
    (s.phase = .idle → t.phase = .idle ∨
      ∃ c rest, s.script = .write 0x0008#15 c :: rest ∧ t.phase = .run c) ∧
    ∀ c, s.phase = .run c → t.phase = .run c ∨
      (t.phase = .idle ∧ (t.status.done = true ∨ ∃ rest, s.script = .reset :: rest))

/-- R272: every command but MRTEST completes at its engine turn, whatever its operands; MRTEST does where its draws
are answered. -/
def Obligations.CommandsComplete : Prop :=
  (∀ (s : State) (c : Word) (rest : List Event), s.phase = .run c → c ≠ encode .mrtest →
      ∃ t, step (s.withScript (.engine :: rest)) = .next t ∧ t.phase = .idle ∧ t.status.done = true) ∧
    ∀ (s : State) (draws : List RngAnswer) (rest : List Event), s.running .mrtest →
      s.rounds.toNat ≤ draws.length →
      ∃ t, step (s.withScript (.engine :: (draws.map .answer ++ rest))) = .next t ∧
        t.phase = .idle ∧ t.status.done = true

/-- R272, R278: an MRTEST whose draw is never answered stays busy and changes nothing of the block, however long the
host polls, and is never final; reset ends it. -/
def Obligations.UnansweredDrawIsStuck : Prop :=
  ∀ s : State, s.stuck →
    (∀ k : Nat, ∃ t, core.run k s = .next t ∧ t.stuck ∧ ¬ t.final ∧ t.busy = true ∧
      t.rngRequest = some { lo := 2, hi := s.m - 2 } ∧
      t = { s with script := t.script, rsp := t.rsp }) ∧
    (s.script = [] → step s = .next s) ∧
    step (s.withScript [.reset]) = .next (State.resetFor s.params)

/-! ### The invariant -/

/-- The reset state of every instance meets the invariant. -/
def Obligations.ResetMeetsTheInvariant : Prop :=
  State.reset.Inv ∧ ∀ p : Params, p.wf = true → (State.resetFor p).Inv

/-- Every step keeps the invariant: W-bit registers hold W bits (R25, R137), no negative zero (R27), `MRS < W` (R42),
no working value without its command (R29). -/
def Obligations.StepKeepsTheInvariant : Prop :=
  ∀ s t : State, s.Inv → step s = .next t → t.Inv

/-! ### Reset -/

/-- R46: the state a reset leaves, at any time, also while a command runs (R262), the constants `ID` and `CFG`, the
reading of `CMD`, the level of `irq`, and no request on the randomness port. The events still to come and the instance stay (log entry 7). -/
def Obligations.ResetState : Prop :=
  ∀ (s : State) (rest : List Event), s.script = .reset :: rest →
    (∀ t, step s = .next t → t.irq = false ∧ t.rngRequest = none ∧ t.memRead 0x0000#15 = (0x52534131#32, false) ∧
      t.memRead 0x0004#15 = (cfgWord s.params, false) ∧ t.memRead 0x0008#15 = (0#32, false) ∧
      t.memRead 0x000C#15 = (0#32, false)) ∧
    step s = .next {
      params := s.params
      a := 0
      b := 0
      m := 0
      r := 0
      x := 0
      y := 0
      status := { done := false, err := none, prime := false, wrBusy := false, op := 0#8 }
      ctrl := { ieDone := false, ieErr := false }
      rounds := 0x00000040#32
      mrs := 0#32
      mrcnt := 0#32
      sign := { as := false, bs := false, xs := false, ys := false }
      phase := .idle
      work := .fresh
      script := rest
      rsp := none }

/-! ### The host bus -/

/-- R64: a read answers and changes nothing; it leaves only the host's input shorter and its answer delivered. -/
def Obligations.ReadHasNoSideEffect : Prop :=
  ∀ (s : State) (addr : Offset) (rest : List Event), s.script = .read addr :: rest →
    step s = .next { s with
      script := rest
      rsp := some (.read (s.memRead addr).1 (s.memRead addr).2) }

/-- R61, R30 to R32, R40 to R44: what the control registers answer. -/
def Obligations.ControlRegisterReads : Prop :=
  ∀ s : State,
    s.memRead 0x0000#15 = (0x52534131#32, false) ∧
    s.memRead 0x0004#15 = (cfgWord s.params, false) ∧
    s.memRead 0x0008#15 = (0#32, false) ∧
    s.memRead 0x000C#15 = (s.statusWord, false) ∧
    s.memRead 0x0010#15 = (s.ctrlWord, false) ∧
    s.memRead 0x0014#15 = (s.rounds, false) ∧
    s.memRead 0x0018#15 = (s.mrs, false) ∧
    s.memRead 0x001C#15 = (s.mrcnt, false) ∧
    s.memRead 0x0020#15 = (s.signWord, false)

/-- R33, R230: the fields of `STATUS` and the codes of its field `ERR`; reserved bits are 0. -/
def Obligations.StatusWordLayout : Prop :=
  ∀ s : State,
    s.statusWord.getLsbD 0 = s.busy ∧
    s.statusWord.getLsbD 1 = s.status.done ∧
    s.statusWord.getLsbD 2 = s.status.err.isSome ∧
    s.statusWord.getLsbD 3 = s.status.prime ∧
    s.statusWord.getLsbD 4 = s.status.wrBusy ∧
    s.statusWord.extractLsb' 5 3 = 0#3 ∧
    s.statusWord.extractLsb' 8 4 =
      (match s.status.err with
        | none => 0#4
        | some .invalidModulus => 1#4
        | some .notInvertible => 2#4
        | some .rngFailure => 3#4
        | some .illegalCommand => 4#4
        | some .operandRange => 5#4) ∧
    s.statusWord.extractLsb' 12 4 = 0#4 ∧
    s.statusWord.extractLsb' 16 8 = s.status.op ∧
    s.statusWord.extractLsb' 24 8 = 0#8

/-- R31, R40, R44: the fields of `CFG`, `CTRL` and `SIGN`; every other bit reads 0 (R45). -/
def Obligations.ConfigControlSignLayout : Prop :=
  (∀ p : Params, p.wf = true →
      ((cfgWord p).extractLsb' 0 11).toNat = p.nw ∧ (cfgWord p).getLsbD 16 = p.mont ∧
        (cfgWord p).extractLsb' 11 5 = 0#5 ∧ (cfgWord p).extractLsb' 17 15 = 0#15) ∧
    ∀ s : State,
      s.ctrlWord.getLsbD 0 = s.ctrl.ieDone ∧ s.ctrlWord.getLsbD 1 = s.ctrl.ieErr ∧
      s.ctrlWord.extractLsb' 2 30 = 0#30 ∧
      s.signWord.getLsbD 0 = s.sign.as ∧ s.signWord.getLsbD 1 = s.sign.bs ∧
      s.signWord.extractLsb' 2 2 = 0#2 ∧
      s.signWord.getLsbD 4 = s.sign.xs ∧ s.signWord.getLsbD 5 = s.sign.ys ∧
      s.signWord.extractLsb' 6 26 = 0#26

/-- R69, R61: word `i` of a register is at `0x1000 * (k + 1) + 4 * i`, and its bit `j` is bit `32*i + j`. -/
def Obligations.RegisterWordRead : Prop :=
  ∀ (s : State) (k : RegIdx) (i : Nat) (addr : Offset), s.params.wf = true → i < s.params.nw →
    addr.toNat = 0x1000 * (k.index + 1) + 4 * i →
    (s.memRead addr).2 = false ∧
      ∀ j, j < 32 → (s.memRead addr).1.getLsbD j = (s.regValue k).testBit (32 * i + j)

/-- R66: a misaligned access, read or write, busy or idle, and its step: the host gets `err = 1` (log entries 3, 8). -/
def Obligations.MisalignedAccess : Prop :=
  ∀ (s : State) (addr : Offset) (v : Word), addr.toNat % 4 ≠ 0 →
    s.memRead addr = (0#32, true) ∧ s.memWrite addr v = (s, true) ∧
    ∀ rest : List Event,
      (s.script = .read addr :: rest → step s = .next { s with script := rest, rsp := some (.read 0#32 true) }) ∧
      (s.script = .write addr v :: rest → step s = .next { s with script := rest, rsp := some (.write true) })

/-- R67: an access to an offset that the map leaves unmapped, read or write, busy or idle, and its step: the host gets
`err = 1` (log entries 3, 8). -/
def Obligations.UnmappedAccess : Prop :=
  ∀ (s : State) (addr : Offset) (v : Word),
    ((0x0024 ≤ addr.toNat ∧ addr.toNat ≤ 0x0FFF) ∨
      (0x1000 ≤ addr.toNat ∧ addr.toNat ≤ 0x6FFF ∧ s.params.nw ≤ addr.toNat % 0x1000 / 4) ∨
      0x7000 ≤ addr.toNat) →
    s.memRead addr = (0#32, true) ∧ s.memWrite addr v = (s, true) ∧
    ∀ rest : List Event,
      (s.script = .read addr :: rest → step s = .next { s with script := rest, rsp := some (.read 0#32 true) }) ∧
      (s.script = .write addr v :: rest → step s = .next { s with script := rest, rsp := some (.write true) })

/-- R68: a write to a read-only register is ignored without an error, busy or idle; so is a write to the read-only
bits of `STATUS` and `SIGN`; a reserved bit of `STATUS`, `CTRL` or `SIGN` has no effect; `CMD` reads 0. Its step
delivers `err = 0` (log entries 3, 8). -/
def Obligations.ReadOnlyWriteIgnored : Prop :=
  ∀ (s : State) (v : Word), s.params.wf = true →
    (∀ addr : Offset,
      (addr = 0x0000#15 ∨ addr = 0x0004#15 ∨ addr = 0x0018#15 ∨ addr = 0x001C#15 ∨
        ∃ (k : RegIdx) (i : Nat), (k = .R ∨ k = .X ∨ k = .Y) ∧ i < s.params.nw ∧
          addr.toNat = 0x1000 * (k.index + 1) + 4 * i) →
      s.memWrite addr v = (s, false) ∧
        ∀ rest, s.script = .write addr v :: rest →
          step s = .next { s with script := rest, rsp := some (.write false) }) ∧
    (s.memWrite 0x000C#15 v).2 = false ∧
    (s.memWrite 0x000C#15 v).1.busy = s.busy ∧
    (s.memWrite 0x000C#15 v).1.status.prime = s.status.prime ∧
    (s.memWrite 0x000C#15 v).1.status.op = s.status.op ∧
    s.memWrite 0x000C#15 v = s.memWrite 0x000C#15 (v &&& 0x00000016#32) ∧
    s.memWrite 0x0010#15 v = s.memWrite 0x0010#15 (v &&& 0x00000003#32) ∧
    s.memWrite 0x0020#15 v = s.memWrite 0x0020#15 (v &&& 0x00000003#32) ∧
    (s.memWrite 0x0020#15 v).1.sign.xs = s.sign.xs ∧
    (s.memWrite 0x0020#15 v).1.sign.ys = s.sign.ys ∧
    s.memRead 0x0008#15 = (0#32, false)

/-- R65: the step of a write is `MemWrite` with its answer delivered (log entries 3, 8). Writes to `STATUS` and `CTRL`
work in either phase; `ROUNDS` and `SIGN` are written while idle, `XS` and `YS`
never by the host. -/
def Obligations.ControlRegisterWrites : Prop :=
  ∀ (s : State) (v : Word) (rest : List Event),
    (∀ addr : Offset, s.script = .write addr v :: rest →
      step s = .next { (s.memWrite addr v).1 with
        script := rest
        rsp := some (.write (s.memWrite addr v).2) }) ∧
    (s.script = .write 0x000C#15 v :: rest →
      step s = .next { s with
        status := { s.status with
          done := if v.getLsbD 1 = true then false else s.status.done
          err := if v.getLsbD 2 = true then none else s.status.err
          wrBusy := if v.getLsbD 4 = true then false else s.status.wrBusy }
        script := rest
        rsp := some (.write false) }) ∧
    (s.script = .write 0x0010#15 v :: rest →
      step s = .next { s with
        ctrl := { ieDone := v.getLsbD 0, ieErr := v.getLsbD 1 }
        script := rest
        rsp := some (.write false) }) ∧
    (s.phase = .idle → s.script = .write 0x0014#15 v :: rest →
      step s = .next { s with rounds := v, script := rest, rsp := some (.write false) }) ∧
    (s.phase = .idle → s.script = .write 0x0020#15 v :: rest →
      step s = .next { s with
        sign := { s.sign with as := v.getLsbD 0, bs := v.getLsbD 1 }
        script := rest
        rsp := some (.write false) })

/-- R72, R38: while busy, a write to `CMD`, `ROUNDS`, `SIGN` or a word of `A`, `B`, `M` only sets `WRBUSY`. -/
def Obligations.BusyWriteOnlyFlags : Prop :=
  ∀ (s : State) (addr : Offset) (v : Word) (rest : List Event) (c : Word), s.params.wf = true →
    s.phase = .run c → s.script = .write addr v :: rest →
    (addr = 0x0008#15 ∨ addr = 0x0014#15 ∨ addr = 0x0020#15 ∨
      ∃ (k : RegIdx) (i : Nat), (k = .A ∨ k = .B ∨ k = .M) ∧ i < s.params.nw ∧
        addr.toNat = 0x1000 * (k.index + 1) + 4 * i) →
    step s = .next { s with
      status := { s.status with wrBusy := true }
      script := rest
      rsp := some (.write false) }

/-- R65, R69: an idle write to word `i` of `A`, `B` or `M` is read back there, no other offset of the register space
reads differently after it, and nothing but that register changes. -/
def Obligations.OperandWriteThenRead : Prop :=
  ∀ (s : State) (k : RegIdx) (i : Nat) (addr : Offset) (v : Word), s.params.wf = true →
    s.phase = .idle → (k = .A ∨ k = .B ∨ k = .M) → i < s.params.nw →
    addr.toNat = 0x1000 * (k.index + 1) + 4 * i →
    (s.memWrite addr v).2 = false ∧
      (s.memWrite addr v).1.memRead addr = (v, false) ∧
      (∀ other, other ≠ addr → (s.memWrite addr v).1.memRead other = s.memRead other) ∧
      (s.memWrite addr v).1 = s.setOperand k ((s.memWrite addr v).1.regValue k)

/-- R94, R69: a W-bit value is the sum of its `NW` words, word `i` weighing `2^(32*i)`. -/
def Obligations.RegisterIsTheSumOfItsWords : Prop :=
  ∀ (nw v : Nat), v < 2 ^ (32 * nw) → assemble ((List.range nw).map (wordOf v)) = v

/-- R98: `LDOP` writes all `NW` words, so the register holds exactly `v` afterwards whatever it held before. -/
def Obligations.LoadOperandLoadsTheValue : Prop :=
  ∀ (s : State) (k : RegIdx) (v : Nat) (rest : List Event), s.Sized → s.phase = .idle →
    (k = .A ∨ k = .B ∨ k = .M) → v < 2 ^ s.params.width →
    core.run s.params.nw (s.withScript (ldop s.params.nw k v ++ rest)) =
      .next (((s.setOperand k v).withScript rest).respond (.write false))

/-- R186: acceptance of any word, legal or not; a `CMD` write while a command runs is none. -/
def Obligations.AcceptanceState : Prop :=
  ∀ (s : State) (c : Word) (rest : List Event), s.script = .write 0x0008#15 c :: rest →
    (∀ t, s.phase = .idle → step s = .next t → t.irq = false ∧ t.busy = true) ∧
    (∀ t running, s.phase = .run running → step s = .next t → t.phase = .run running) ∧
    (s.phase = .idle → step s = .next { s with
      status := { s.status with done := false, err := none, prime := false, op := c.extractLsb' 0 8 }
      phase := .run c
      work := .fresh
      script := rest
      rsp := some (.write false) })

/-- R47, R186: the level of `irq`; it is low after every acceptance, and high after every completion that `CTRL`
enables. -/
def Obligations.InterruptLevel : Prop :=
  (∀ s : State, s.irq = ((s.status.done && s.ctrl.ieDone) || (s.status.err.isSome && s.ctrl.ieErr))) ∧
    (∀ (s : State) (c : Word), (s.accept c).irq = false) ∧
    ∀ (i : Instr) (s t : State), s.running i → exec i s = .next t → t.phase = .idle →
      t.irq = (s.ctrl.ieDone || (t.status.err.isSome && s.ctrl.ieErr))

/-- R38: `WRBUSY` is set by a busy-time write to `CMD`, `ROUNDS`, `SIGN` or an operand word, and by nothing else; it is
cleared by a write of 1 to its bit of `STATUS` or by reset, and by nothing else, acceptance included. -/
def Obligations.WriteBusyIsSticky : Prop :=
  ∀ s t : State, step s = .next t →
    (s.status.wrBusy = true → t.status.wrBusy = true ∨ (∃ rest, s.script = .reset :: rest) ∨
      ∃ v rest, s.script = .write 0x000C#15 v :: rest ∧ v.getLsbD 4 = true) ∧
    (s.status.wrBusy = false →
      (t.status.wrBusy = true ↔ s.busy = true ∧ ∃ addr v rest, s.script = .write addr v :: rest ∧
        (addr = 0x0008#15 ∨ addr = 0x0014#15 ∨ addr = 0x0020#15 ∨
          ∃ k i, (k = .A ∨ k = .B ∨ k = .M) ∧ target s.params addr = .word k i))) ∧
    ((∃ rest, s.script = .reset :: rest) ∨
        (∃ v rest, s.script = .write 0x000C#15 v :: rest ∧ v.getLsbD 4 = true) →
      t.status.wrBusy = false)

/-- R39: `OP` is written at acceptance, with the opcode byte of the word, and keeps its value until then; reset
clears it. -/
def Obligations.OpcodeByteKept : Prop :=
  ∀ s t : State, step s = .next t →
    (∀ c rest, s.phase = .idle → s.script = .write 0x0008#15 c :: rest → t.status.op = c.extractLsb' 0 8) ∧
    (∀ rest, s.script = .reset :: rest → t.status.op = 0#8) ∧
    ((∀ c rest, s.phase = .idle → s.script ≠ .write 0x0008#15 c :: rest) →
      (∀ rest, s.script ≠ .reset :: rest) → t.status.op = s.status.op)

/-- R73, R72: while a command runs and does not complete, no operand and no result changes, and `PRIME`, `ERR` and
`DONE` are 0. -/
def Obligations.BusyKeepsOperandsAndResults : Prop :=
  ∀ (s t : State) (c : Word), s.Inv → s.phase = .run c → step s = .next t → t.phase = .run c →
    t.a = s.a ∧ t.b = s.b ∧ t.m = s.m ∧ t.rounds = s.rounds ∧ t.sign = s.sign ∧ t.params = s.params ∧
      t.r = s.r ∧ t.x = s.x ∧ t.y = s.y ∧ t.mrs = s.mrs ∧ t.mrcnt = s.mrcnt ∧
      t.status.prime = false ∧ t.status.err = none ∧ t.status.done = false

/-! ### NOP, MODMUL, MODEXP -/

/-- R185: NOP has no result; from its acceptance to its completion `DONE`, `ERR`, `PRIME` and `OP` are all it writes. -/
def Obligations.NopCompletes : Prop :=
  encode .nop = 0x00000000#32 ∧
    (∀ s : State, exec .nop s = .next { s with
      status := { s.status with err := none, done := true }
      phase := .idle
      work := .fresh }) ∧
    ∀ (s : State) (rest : List Event), s.phase = .idle →
      s.script = .write 0x0008#15 0x00000000#32 :: .engine :: rest →
      core.run 2 s = .next { s with
        status := { s.status with done := true, err := none, prime := false, op := 0x00#8 }
        phase := .idle
        work := .fresh
        script := rest
        rsp := some (.write false) }

/-- R111: from acceptance, `R <- (A * B) mod M`; `M = 0` is `InvalidModulus` and `R` is unchanged. -/
def Obligations.ModmulResult : Prop :=
  encode .modmul = 0x00000001#32 ∧ ∀ s : State, s.work = .fresh →
    (s.m ≠ 0 → exec .modmul s = .next { s with
      r := s.a * s.b % s.m
      status := { s.status with err := none, done := true }
      phase := .idle
      work := .fresh }) ∧
    (s.m = 0 → exec .modmul s = .next { s with
      status := { s.status with err := some .invalidModulus, done := true }
      phase := .idle
      work := .fresh })

/-- R112, R114: from acceptance, `R <- (A ^ B) mod M`; `M = 0` is `InvalidModulus` whatever `A` and `B` hold. -/
def Obligations.ModexpResult : Prop :=
  encode .modexp = 0x00000002#32 ∧ ∀ s : State, s.work = .fresh →
    (s.m ≠ 0 → exec .modexp s = .next { s with
      r := s.a ^ s.b % s.m
      status := { s.status with err := none, done := true }
      phase := .idle
      work := .fresh }) ∧
    (s.m = 0 → exec .modexp s = .next { s with
      status := { s.status with err := some .invalidModulus, done := true }
      phase := .idle
      work := .fresh })

/-- R113, R115: the values of the loop after `k` iterations, and that it ends after `bitlen(exponent)` of them. -/
def Obligations.ModexpLoopInvariant : Prop :=
  ∀ base exponent m k : Nat, 0 < m →
    ((PowWork.next m)^[k] (PowWork.start base exponent m)).bp = base ^ 2 ^ k % m ∧
      ((PowWork.next m)^[k] (PowWork.start base exponent m)).acc = base ^ (exponent % 2 ^ k) % m ∧
      ((PowWork.next m)^[k] (PowWork.start base exponent m)).ex = exponent / 2 ^ k ∧
      (((PowWork.next m)^[k] (PowWork.start base exponent m)).ex = 0 ↔ bitlen exponent ≤ k)

/-! ### EGCD, MODINV -/

/-- R130: the recursion of the raw function `E`, the fall of its first argument, and its Bézout identity. -/
def Obligations.RawRecursion : Prop :=
  (∀ b : Int, rawE 0 b = (b, 0, 1)) ∧
    (∀ a b g x1 y1 : Int, a ≠ 0 → rawE (b.tmod a) a = (g, x1, y1) →
      rawE a b = (g, y1 - b.tdiv a * x1, x1)) ∧
    (∀ a b : Int, a ≠ 0 → (b.tmod a).natAbs < a.natAbs) ∧
    ∀ a b g x y : Int, rawE a b = (g, x, y) → a * x + b * y = g

/-- R132: the normalisation `N`, and with it `g = gcd(|a|, |b|)` and `a * x + b * y = g` for all integers. -/
def Obligations.EgcdIsBezout : Prop :=
  (∀ a b g x y : Int, rawE a b = (g, x, y) →
      (0 ≤ g → egcd a b = (g, x, y)) ∧ (g < 0 → egcd a b = (-g, -x, -y))) ∧
    ∀ a b g x y : Int, egcd a b = (g, x, y) →
      g = (Nat.gcd a.natAbs b.natAbs : Int) ∧ a * x + b * y = g

/-- R134: the loop the engine runs returns the triple of the recursion, and its rows keep their two identities. -/
def Obligations.EuclidLoopIsTheRecursion : Prop :=
  ∀ a b : Int,
    (EuclidWork.start a b).finish = egcd a b ∧
      ∀ k : Nat,
        (EuclidWork.iterate^[k] (EuclidWork.start a b)).oldR =
            b * (EuclidWork.iterate^[k] (EuclidWork.start a b)).oldS +
              a * (EuclidWork.iterate^[k] (EuclidWork.start a b)).oldT ∧
          (EuclidWork.iterate^[k] (EuclidWork.start a b)).r =
            b * (EuclidWork.iterate^[k] (EuclidWork.start a b)).s +
              a * (EuclidWork.iterate^[k] (EuclidWork.start a b)).t

/-- R135: the block may compute on magnitudes and fix the signs. -/
def Obligations.EgcdSignSymmetry : Prop :=
  ∀ a b g x y : Int, rawE (a.natAbs : Int) (b.natAbs : Int) = (g, x, y) →
    0 ≤ g ∧ egcd a b = (g, (if a < 0 then -1 else 1) * x, (if b < 0 then -1 else 1) * y)

/-- R137: every result and every working value of the Euclidean unit (R29: the three rows and the quotient) has a
W-bit magnitude. -/
def Obligations.EgcdRange : Prop :=
  ∀ a b : Int,
    (∀ g x y : Int, egcd a b = (g, x, y) →
      g.natAbs ≤ max a.natAbs b.natAbs ∧ x.natAbs ≤ max b.natAbs 1 ∧ y.natAbs ≤ max a.natAbs 1) ∧
    ∀ k : Nat,
      (EuclidWork.iterate^[k] (EuclidWork.start a b)).s.natAbs ≤ max (max a.natAbs b.natAbs) 1 ∧
        (EuclidWork.iterate^[k] (EuclidWork.start a b)).t.natAbs ≤ max (max a.natAbs b.natAbs) 1 ∧
        (EuclidWork.iterate^[k] (EuclidWork.start a b)).oldS.natAbs ≤ max (max a.natAbs b.natAbs) 1 ∧
        (EuclidWork.iterate^[k] (EuclidWork.start a b)).oldT.natAbs ≤ max (max a.natAbs b.natAbs) 1 ∧
        (EuclidWork.iterate^[k] (EuclidWork.start a b)).oldR.natAbs ≤ max a.natAbs b.natAbs ∧
        (EuclidWork.iterate^[k] (EuclidWork.start a b)).r.natAbs ≤ max a.natAbs b.natAbs ∧
        (EuclidWork.iterate^[k] (EuclidWork.start a b)).q.natAbs ≤ max a.natAbs b.natAbs

/-- R133: from acceptance, EGCD writes `g`, `|x|`, `|y|` and the signs of `x` and `y`. It has no error. -/
def Obligations.EgcdResult : Prop :=
  encode .egcd = 0x00000003#32 ∧ ∀ (s : State) (a b g x y : Int), s.work = .fresh →
    a = (if s.a = 0 then 0 else if s.sign.as = true then -(s.a : Int) else (s.a : Int)) →
    b = (if s.b = 0 then 0 else if s.sign.bs = true then -(s.b : Int) else (s.b : Int)) →
    normalize (rawE a b) = (g, x, y) →
    0 ≤ g ∧ exec .egcd s = .next { s with
      r := g.toNat
      x := x.natAbs
      y := y.natAbs
      sign := { s.sign with xs := decide (x < 0), ys := decide (y < 0) }
      status := { s.status with err := none, done := true }
      phase := .idle
      work := .fresh }

/-- R138, R140: from acceptance, MODINV writes `emod(y, M)`, which is `y`, or `y + M` where `y` is negative, and is
the inverse of `A` modulo `M`; `M = 0` is `InvalidModulus`, tested first, and `g != 1` is `NotInvertible`. -/
def Obligations.ModinvResult : Prop :=
  encode .modinv = 0x00000004#32 ∧
  ∀ (s : State) (g x y : Int), s.work = .fresh → egcd (s.m : Int) (s.a : Int) = (g, x, y) →
    (s.m ≠ 0 → g = 1 →
      -(s.m : Int) < y ∧ y < (s.m : Int) ∧
      y.emod (s.m : Int) = (if y < 0 then y + (s.m : Int) else y) ∧
      (y.emod (s.m : Int)).toNat < s.m ∧ s.a * (y.emod (s.m : Int)).toNat % s.m = 1 % s.m ∧
      exec .modinv s = .next { s with
        r := (y.emod (s.m : Int)).toNat
        status := { s.status with err := none, done := true }
        phase := .idle
        work := .fresh }) ∧
    (s.m ≠ 0 → g ≠ 1 → exec .modinv s = .next { s with
      status := { s.status with err := some .notInvertible, done := true }
      phase := .idle
      work := .fresh }) ∧
    (s.m = 0 → exec .modinv s = .next { s with
      status := { s.status with err := some .invalidModulus, done := true }
      phase := .idle
      work := .fresh })

/-! ### MRTEST, MRWIT -/

/-- R153: the factoring of `n - 1` for odd `n >= 5`; `s <= W - 1` where `n` has `W` bits. -/
def Obligations.FactoringOfCandidate : Prop :=
  ∀ n : Nat, n % 2 = 1 → 5 ≤ n →
    2 ^ (factor n).2 * (factor n).1 = n - 1 ∧ (factor n).1 % 2 = 1 ∧ 1 ≤ (factor n).2 ∧
      ∀ w, n < 2 ^ w → (factor n).2 ≤ w - 1

/-- R151, R152: the deterministic verdicts of MRTEST. No draw is made, whatever the script holds, and `ROUNDS` is not
looked at. -/
def Obligations.DeterministicVerdicts : Prop :=
  ∀ (s : State) (v : Bool),
    (((s.m ≤ 1 ∨ (s.m ≠ 2 ∧ s.m % 2 = 0)) ∧ v = false) ∨ ((s.m = 2 ∨ s.m = 3) ∧ v = true)) →
    exec .mrtest s = .next { s with
      status := { s.status with prime := v, err := none, done := true }
      mrs := 0#32
      mrcnt := 0#32
      phase := .idle
      work := .fresh }

/-- R158: with `ROUNDS = 0` every odd `n >= 3` gets `PRIME = 1` with `MRCNT = 0` and no draw. -/
def Obligations.MrtestZeroRounds : Prop :=
  ∀ s : State, s.work = .fresh → s.rounds = 0#32 → s.m % 2 = 1 → 3 ≤ s.m →
    exec .mrtest s = .next { s with
      status := { s.status with prime := true, err := none, done := true }
      mrs := if s.m = 3 then 0#32 else BitVec.ofNat 32 (factor s.m).2
      mrcnt := 0#32
      phase := .idle
      work := .fresh }

/-- R156, R163: all `ROUNDS` rounds pass: the verdict is true, and the draws are used up in order, no more than
`ROUNDS` of them. -/
def Obligations.MrtestAllRoundsPass : Prop :=
  ∀ (s : State) (d e i : Nat) (draws : List RngAnswer) (rest : List Event),
    s.m % 2 = 1 → 5 ≤ s.m → d % 2 = 1 → 2 ^ e * d = s.m - 1 → s.atRound d e i →
    s.script = draws.map .answer ++ rest → i + draws.length = s.rounds.toNat →
    (∀ ans ∈ draws, InRange s.m ans ∧ WitnessPasses s.m d e ans.val) →
    exec .mrtest s = .next { s with
      status := { s.status with prime := true, err := none, done := true }
      mrs := BitVec.ofNat 32 e
      mrcnt := s.rounds
      phase := .idle
      work := .fresh
      script := rest }

/-- R156, R163: the first round that fails ends the test, "return false immediately", with no further draw. -/
def Obligations.MrtestFirstFailingRound : Prop :=
  ∀ (s : State) (d e i : Nat) (draws : List RngAnswer) (last : RngAnswer) (rest : List Event),
    s.m % 2 = 1 → 5 ≤ s.m → d % 2 = 1 → 2 ^ e * d = s.m - 1 → s.atRound d e i →
    s.script = draws.map .answer ++ .answer last :: rest → i + draws.length < s.rounds.toNat →
    (∀ ans ∈ draws, InRange s.m ans ∧ WitnessPasses s.m d e ans.val) →
    InRange s.m last → ¬ WitnessPasses s.m d e last.val →
    exec .mrtest s = .next { s with
      status := { s.status with prime := false, err := none, done := true }
      mrs := BitVec.ofNat 32 e
      mrcnt := BitVec.ofNat 32 (i + draws.length)
      phase := .idle
      work := .fresh
      script := rest }

/-- R159, R75: a draw that is flagged failed or lies outside `[2, n - 2]` ends the test with `RngFailure`; `MRS` and
`MRCNT` keep their values and the draw is not repeated. -/
def Obligations.MrtestDrawFailure : Prop :=
  ∀ (s : State) (d e i : Nat) (draws : List RngAnswer) (bad : RngAnswer) (rest : List Event),
    s.m % 2 = 1 → 5 ≤ s.m → d % 2 = 1 → 2 ^ e * d = s.m - 1 → s.atRound d e i →
    s.script = draws.map .answer ++ .answer bad :: rest → i + draws.length < s.rounds.toNat →
    (∀ ans ∈ draws, InRange s.m ans ∧ WitnessPasses s.m d e ans.val) →
    (bad.fail = true ∨ bad.val < 2 ∨ bad.val > s.m - 2) →
    exec .mrtest s = .next { s with
      status := { s.status with err := some .rngFailure, done := true }
      phase := .idle
      work := .fresh
      script := rest }

/-- R48, R74, R154: where the next draw is not answered, the engine's turn leaves the request `(2, n - 2)` on the
randomness port, and nothing else has changed. The request is held through every event but the answer, a turn of the
engine and reset, and no other command and no idle block has one. -/
def Obligations.MrtestWaitsForDraw : Prop :=
  (∀ (s : State) (d e i : Nat) (draws : List RngAnswer) (rest : List Event),
    s.m % 2 = 1 → 5 ≤ s.m → d % 2 = 1 → 2 ^ e * d = s.m - 1 → s.atRound d e i →
    s.script = draws.map .answer ++ rest → (∀ ans more, rest ≠ .answer ans :: more) →
    i + draws.length < s.rounds.toNat →
    (∀ ans ∈ draws, InRange s.m ans ∧ WitnessPasses s.m d e ans.val) →
    exec .mrtest s = .next { s with
      work := .mrAwait d e (i + draws.length) { lo := 2, hi := s.m - 2 }
      script := rest } ∧
    ∀ t, exec .mrtest s = .next t → t.rngRequest = some { lo := 2, hi := s.m - 2 }) ∧
  (∀ (s t : State) (req : RngReq) (ev : Event) (rest : List Event), s.running .mrtest →
    s.rngRequest = some req → ((∃ addr, ev = .read addr) ∨ (∃ addr v, ev = .write addr v) ∨ ev = .tick) →
    step (s.withScript (ev :: rest)) = .next t → t.rngRequest = some req) ∧
  ∀ (s : State) (req : RngReq), s.Inv → s.rngRequest = some req →
    s.running .mrtest ∧ req = { lo := 2, hi := s.m - 2 }

/-- R160, R155: MRWIT: the deterministic verdicts, which do not look at `A`; for odd `n >= 5` a witness outside
`[2, n - 2]` is `OperandRange`, else one round decides. Neither `ROUNDS` nor the randomness port is used. -/
def Obligations.MrwitResult : Prop :=
  encode .mrwit = 0x00000006#32 ∧
  (∀ (s : State) (v : Bool),
    (((s.m ≤ 1 ∨ (s.m ≠ 2 ∧ s.m % 2 = 0)) ∧ v = false) ∨ ((s.m = 2 ∨ s.m = 3) ∧ v = true)) →
    exec .mrwit s = .next { s with
      status := { s.status with prime := v, err := none, done := true }
      mrs := 0#32
      mrcnt := 0#32
      phase := .idle
      work := .fresh }) ∧
  ∀ (s : State) (d e : Nat), s.work = .fresh →
    s.m % 2 = 1 → 5 ≤ s.m → d % 2 = 1 → 2 ^ e * d = s.m - 1 →
    (s.a < 2 ∨ s.a > s.m - 2 → exec .mrwit s = .next { s with
      status := { s.status with err := some .operandRange, done := true }
      phase := .idle
      work := .fresh }) ∧
    ∀ ok : Bool, 2 ≤ s.a → s.a ≤ s.m - 2 → (ok = true ↔ WitnessPasses s.m d e s.a) →
      exec .mrwit s = .next { s with
        status := { s.status with prime := ok, err := none, done := true }
        mrs := BitVec.ofNat 32 e
        mrcnt := if ok = true then 1#32 else 0#32
        phase := .idle
        work := .fresh }

/-- R164: MRTEST's verdict is true exactly when `n` is 2 or 3, or `n` is odd, `n >= 5`, and MRWIT on the same `n`
gives `PRIME = 1` for each of the draws; it is false at the first draw for which MRWIT gives 0. -/
def Obligations.MrtestIsMrwitOnEveryDraw : Prop :=
  ∀ (s : State) (draws : List RngAnswer) (rest : List Event), s.work = .fresh →
    s.script = draws.map .answer ++ rest →
    (s.m % 2 = 1 → 5 ≤ s.m → draws.length = s.rounds.toNat ∧ ∀ ans ∈ draws, InRange s.m ans) →
    ∃ t, exec .mrtest s = .next t ∧ t.phase = .idle ∧ t.status.err = none ∧
      (t.status.prime = true ↔
        (s.m = 2 ∨ s.m = 3 ∨
          (s.m % 2 = 1 ∧ 5 ≤ s.m ∧
            ∀ ans ∈ draws, ∃ u, exec .mrwit { s with a := ans.val } = .next u ∧ u.status.prime = true))) ∧
      (s.m % 2 = 1 → 5 ≤ s.m → t.status.prime = false →
        ∃ pre last post, draws = pre ++ last :: post ∧
          (∀ ans ∈ pre, ∃ u, exec .mrwit { s with a := ans.val } = .next u ∧ u.status.prime = true) ∧
          (∃ u, exec .mrwit { s with a := last.val } = .next u ∧ u.status.prime = false) ∧
          t.mrcnt = BitVec.ofNat 32 pre.length ∧ t.script = post.map .answer ++ rest)

/-- R161: a prime passes for every round count and every sequence of draws. -/
def Obligations.PrimesAlwaysPass : Prop :=
  ∀ (s : State) (draws : List RngAnswer) (rest : List Event), s.work = .fresh → Nat.Prime s.m →
    s.script = draws.map .answer ++ rest →
    (5 ≤ s.m → draws.length = s.rounds.toNat ∧ ∀ ans ∈ draws, InRange s.m ans) →
    ∃ t, exec .mrtest s = .next t ∧ t.phase = .idle ∧ t.status.err = none ∧ t.status.prime = true

/-- R75, R74: what an answer does when it comes: it is the answer to the pending request, and ends the command or
starts the round, and the request is gone; with no request pending it changes nothing (R262, log entry 6). And sampling an answer and letting
the engine go on is the same as the engine's drawing it: the two ways the model takes an answer agree (log entry 5). -/
def Obligations.SamplingIsDrawing : Prop :=
  (∀ (s : State) (ans : RngAnswer) (rest : List Event),
    step (s.withScript (.answer ans :: rest)) = .next ((s.withScript rest).sampleAnswer ans) ∧
    ((∀ d e i req, s.work ≠ .mrAwait d e i req) →
      step (s.withScript (.answer ans :: rest)) = .next (s.withScript rest)) ∧
    ∀ (d e i : Nat) (req : RngReq), s.work = .mrAwait d e i req →
      (ans.fail = true ∨ ans.val < req.lo ∨ ans.val > req.hi →
        step (s.withScript (.answer ans :: rest)) = .next { s with
          status := { s.status with err := some .rngFailure, done := true }
          phase := .idle
          work := .fresh
          script := rest }) ∧
      (ans.fail = false → req.lo ≤ ans.val → ans.val ≤ req.hi →
        step (s.withScript (.answer ans :: rest)) = .next { s with
          work := .mrPow d e i ans.val { acc := 1 % s.m, bp := ans.val % s.m, ex := d }
          script := rest }) ∧
      ∀ t, step (s.withScript (.answer ans :: rest)) = .next t → t.rngRequest = none) ∧
  ∀ (s : State) (d e i : Nat) (ans : RngAnswer) (rest : List Event), smallVerdict s.m = none →
    s.work = .mrAwait d e i (witnessReq s.m) → i < s.rounds.toNat →
    (drawValue (witnessReq s.m) ans ≠ none →
      exec .mrtest (s.withScript (.answer ans :: rest)) =
        exec .mrtest ((s.withScript rest).sampleAnswer ans)) ∧
    (drawValue (witnessReq s.m) ans = none →
      exec .mrtest (s.withScript (.answer ans :: rest)) = .next ((s.withScript rest).sampleAnswer ans))

/-! ### MONTMUL -/

/-- R176, R175: with `MONT = 1` and an odd modulus, `R <- (A * B * Rinv) mod M` for the one `Rinv` of R175; a zero or
even modulus is `InvalidModulus`; with `MONT = 0` the command is `IllegalCommand` (R93). -/
def Obligations.MontmulResult : Prop :=
  encode .montmul = 0x00000007#32 ∧ ∀ s : State, s.work = .fresh →
    (s.params.mont = true → s.m % 2 = 1 →
      ∃ rinv, rinv < s.m ∧ 2 ^ s.params.width * rinv % s.m = 1 % s.m ∧
        (∀ other, other < s.m → 2 ^ s.params.width * other % s.m = 1 % s.m → other = rinv) ∧
        exec .montmul s = .next { s with
          r := s.a * s.b * rinv % s.m
          status := { s.status with err := none, done := true }
          phase := .idle
          work := .fresh }) ∧
    (s.params.mont = true → s.m % 2 = 0 → exec .montmul s = .next { s with
      status := { s.status with err := some .invalidModulus, done := true }
      phase := .idle
      work := .fresh }) ∧
    (s.params.mont = false → exec .montmul s = .next { s with
      status := { s.status with err := some .illegalCommand, done := true }
      phase := .idle
      work := .fresh })

/-- R178: `MONT` changes the result of no command other than MONTMUL. -/
def Obligations.MontParameterInvisible : Prop :=
  ∀ (i : Instr) (s t : State) (f : Bool), i ≠ .montmul → exec i s = .next t →
    exec i { s with params := { s.params with mont := f } } =
      .next { t with params := { t.params with mont := f } }

/-! ### All commands -/

/-- R23, R24: the frame. Every command leaves the operands, the input signs, `ROUNDS`, `CTRL`, `OP`, `WRBUSY` and the
instance alone; a result register only the command of its column may change; only MRTEST takes input. -/
def Obligations.CommandFrame : Prop :=
  ∀ (i : Instr) (s t : State), exec i s = .next t →
    t.params = s.params ∧ t.a = s.a ∧ t.b = s.b ∧ t.m = s.m ∧ t.sign.as = s.sign.as ∧ t.sign.bs = s.sign.bs ∧
      t.rounds = s.rounds ∧ t.ctrl = s.ctrl ∧ t.status.op = s.status.op ∧ t.status.wrBusy = s.status.wrBusy ∧
      t.rsp = s.rsp ∧
      (i = .nop ∨ i = .mrtest ∨ i = .mrwit → t.r = s.r) ∧
      (i ≠ .egcd → t.x = s.x ∧ t.y = s.y ∧ t.sign.xs = s.sign.xs ∧ t.sign.ys = s.sign.ys) ∧
      (i ≠ .mrtest → i ≠ .mrwit → t.mrs = s.mrs ∧ t.mrcnt = s.mrcnt ∧ t.status.prime = s.status.prime) ∧
      (i ≠ .mrtest → t.script = s.script)

/-- R23: the frame as the host reads it: every offset of the register space but `STATUS` and those of the command's
result registers reads as before. -/
def Obligations.CommandFrameByRead : Prop :=
  ∀ (i : Instr) (s t : State) (addr : Offset), exec i s = .next t →
    mayWrite i (target s.params addr) = false → t.memRead addr = s.memRead addr

/-- R232: a command word in flight, of the table or not, that ends with an error leaves `ERR`, `DONE` and the idle
phase, `PRIME = 0`, `OP` its opcode byte, and everything else as before; only the input MRTEST has drawn is gone, some answers from its front, and no input for any
other word. -/
def Obligations.ErrorsArePrecise : Prop :=
  ∀ (s t : State) (c : Word) (err : CmdError), s.Inv → s.phase = .run c →
    step (s.withScript (.engine :: s.script)) = .next t → t.phase = .idle → t.status.err = some err →
    t = { s with
        status := { s.status with err := some err, done := true }
        phase := .idle
        work := .fresh
        script := t.script } ∧
      (∃ draws : List RngAnswer, s.script = draws.map .answer ++ t.script) ∧
      (c ≠ encode .mrtest → t.script = s.script) ∧
      t.status.prime = false ∧ t.status.op = c.extractLsb' 0 8 ∧
      t.statusWord.getLsbD 2 = true ∧ t.busy = false

/-- R230: which command raises which error; NOP and EGCD raise nothing. -/
def Obligations.ErrorsOfEachCommand : Prop :=
  ∀ (i : Instr) (s t : State) (err : CmdError), s.status.err = none → exec i s = .next t →
    t.status.err = some err →
    (err = .invalidModulus ∧ (((i = .modmul ∨ i = .modexp ∨ i = .modinv) ∧ s.m = 0) ∨
        (i = .montmul ∧ s.m % 2 = 0))) ∨
      (err = .notInvertible ∧ i = .modinv ∧ s.m ≠ 0) ∨
      (err = .rngFailure ∧ i = .mrtest) ∨
      (err = .illegalCommand ∧ i = .montmul ∧ s.params.mont = false) ∨
      (err = .operandRange ∧ i = .mrwit ∧ s.m % 2 = 1 ∧ 5 ≤ s.m ∧ (s.a < 2 ∨ s.a > s.m - 2))

/-- R192, R23: the outcome of a command depends on the registers of its "r" columns, and for MRTEST on the draws, and
on nothing else: two runs that differ in anything else end in the same phase with the same results. -/
def Obligations.OutcomeDependsOnReadRegisters : Prop :=
  ∀ (i : Instr) (s u t v : State), s.running i → u.running i → s.work = .fresh → u.work = .fresh →
    ReadsAgree s u i → exec i s = .next t → exec i u = .next v →
    t.phase = v.phase ∧ (t.phase = .idle → ResultsAgree t v i)

/-- R29: a command's outcome does not depend on where in its loop the engine stands: from every state a run reaches it
is what it would be from acceptance. For MRTEST: while it factors, what it would be from acceptance; inside a round,
what it would be with the round's draw still pending and its answer next. And an iteration of the engine, also one
that ends a round, changes no outcome: a draw is requested only after the round before has passed (R154), and a round
that fails ends the test (R156). The iterations are log entry 4. -/
def Obligations.OutcomeFromAnyEnginePosition : Prop :=
  ∀ s : State, s.Inv →
    (∀ i : Instr, s.running i → i ≠ .mrtest → exec i s = exec i (s.withWork .fresh)) ∧
    (∀ d e : Nat, s.running .mrtest → s.work = .mrFactor d e →
      exec .mrtest s = exec .mrtest (s.withWork .fresh)) ∧
    (∀ d e i a : Nat, s.running .mrtest →
      ((∃ w, s.work = .mrPow d e i a w) ∨ ∃ x j, s.work = .mrSquare d e i a x j) →
      exec .mrtest s = exec .mrtest
        ((s.withWork (.mrAwait d e i (witnessReq s.m))).withScript (.answer ⟨a, false⟩ :: s.script))) ∧
    (∀ i : Instr, s.running i → exec i s.engineTick = exec i s) ∧
    ∀ rest : List Event,
      core.run 2 (s.withScript (.tick :: .engine :: rest)) = step (s.withScript (.engine :: rest))

/-- R29, R73: an iteration of the engine is invisible: every offset reads as before, no output of the block to the
host changes, and the command does not complete. -/
def Obligations.EngineStepIsInvisible : Prop :=
  ∀ (s : State) (rest : List Event), s.script = .tick :: rest →
    ∃ w, step s = .next { s with work := w, script := rest } ∧
      ∀ t, step s = .next t → t.irq = s.irq ∧ ∀ addr, t.memRead addr = s.memRead addr
end

