-- ==== Sys2Proof/Laws/Numbers.lean ====
section
/-! SUPPORT. What the loops of the engine do, said once: one iteration may be taken out of each loop, and the words of
a register are independent of each other. -/

namespace Sys2Proof.Machine

/-! ### bitlen -/

@[simp] theorem bitlen_zero : bitlen 0 = 0 := rfl

theorem bitlen_half {v : Nat} (h : v ≠ 0) : bitlen v = bitlen (v / 2) + 1 := by
  unfold bitlen
  rw [if_neg h, Nat.log2_def]
  by_cases h2 : 2 ≤ v
  · rw [if_pos h2, if_neg (by omega)]
  · rw [if_neg h2, if_pos (by omega)]

theorem bitlen_pos {v : Nat} (h : v ≠ 0) : 0 < bitlen v := by
  rw [bitlen_half h]; omega

/-! ### The exponentiation loop -/

theorem finish_of_ex_zero (m : Nat) {w : PowWork} (h : w.ex = 0) : w.finish m = w.acc := by
  simp [PowWork.finish, h, powLoop]

/-- One iteration of R113 may be taken out of the loop. -/
theorem finish_next (m : Nat) {w : PowWork} (h : w.ex ≠ 0) : (w.next m).finish m = w.finish m := by
  have hb : bitlen w.ex = bitlen (w.next m).ex + 1 := bitlen_half h
  rw [PowWork.finish, PowWork.finish, hb, powLoop, if_neg h]

/-! ### The Euclidean loop -/

/-- `old_r - q * r` is the truncated remainder (R134). -/
theorem next_r (w : EuclidWork) : w.next.r = w.oldR.tmod w.r := by
  rw [EuclidWork.next, Int.tmod_def, Int.mul_comm]

/-- The remainder falls in absolute value (R130). -/
theorem next_r_lt {w : EuclidWork} (h : w.r ≠ 0) : w.next.r.natAbs < w.r.natAbs := by
  rw [next_r, Int.natAbs_tmod]
  exact Nat.mod_lt _ (Int.natAbs_pos.mpr h)

/-- Iterations beyond the end of the loop change nothing. -/
theorem euclidLoop_fuel : ∀ (f g : Nat) (w : EuclidWork), w.r.natAbs ≤ f → w.r.natAbs ≤ g →
    euclidLoop f w = euclidLoop g w
  | 0, 0, _, _, _ => rfl
  | 0, _ + 1, w, hf, _ => by
    have h : w.r = 0 := by omega
    simp [euclidLoop, h]
  | _ + 1, 0, w, _, hg => by
    have h : w.r = 0 := by omega
    simp [euclidLoop, h]
  | f + 1, g + 1, w, hf, hg => by
    by_cases h : w.r = 0
    · simp [euclidLoop, h]
    · have := next_r_lt h
      rw [euclidLoop, euclidLoop, if_neg h, if_neg h]
      exact euclidLoop_fuel f g w.next (by omega) (by omega)

/-- One iteration of R134 may be taken out of the loop. -/
theorem euclid_finish_next {w : EuclidWork} (h : w.r ≠ 0) : w.next.finish = w.finish := by
  have hw : euclidLoop w.r.natAbs w = euclidLoop w.next.r.natAbs w.next := by
    have hlt := next_r_lt h
    obtain ⟨k, hk⟩ : ∃ k, w.r.natAbs = k + 1 := ⟨w.r.natAbs - 1, by omega⟩
    rw [hk, euclidLoop, if_neg h]
    exact euclidLoop_fuel _ _ _ (by omega) le_rfl
  rw [EuclidWork.finish, EuclidWork.finish, hw]

/-- `N` leaves no negative `g` (R132). -/
theorem normalize_nonneg (t : Int × Int × Int) : 0 ≤ (normalize t).1 := by
  obtain ⟨g, x, y⟩ := t
  simp only [normalize]
  split
  · simp; omega
  · simp; omega

/-! ### The factoring loop -/

theorem finishFactor_odd {d : Nat} (e : Nat) (h : d % 2 = 1) : finishFactor d e = (d, e) := by
  obtain ⟨k, hk⟩ : ∃ k, bitlen d = k + 1 := ⟨bitlen d - 1, by have := bitlen_pos (v := d) (by omega); omega⟩
  rw [finishFactor, hk, factorLoop, if_neg (by omega)]

/-- One halving of R153 may be taken out of the loop. -/
theorem finishFactor_even {d : Nat} (e : Nat) (h0 : d ≠ 0) (h : d % 2 = 0) :
    finishFactor (d / 2) (e + 1) = finishFactor d e := by
  rw [finishFactor, finishFactor, bitlen_half h0, factorLoop, if_pos h]

/-! ### The rounds -/

/-- A round goes on only from an answer; what the loop of R156 can do with the first event. -/
theorem mrRounds_cases (n t d e i : Nat) (evs : List Event) :
    (t ≤ i ∧ mrRounds n t d e i evs = .decided true e t evs) ∨
    (i < t ∧ (∀ ans rest, evs ≠ .answer ans :: rest) ∧ mrRounds n t d e i evs = .waiting d e i evs) ∨
    (i < t ∧ ∃ ans rest, evs = .answer ans :: rest ∧
      ((drawValue (witnessReq n) ans = none ∧ mrRounds n t d e i evs = .failed rest) ∨
       ∃ a, drawValue (witnessReq n) ans = some a ∧
        mrRounds n t d e i evs = afterRound n t d e i (mrRound n d e a) rest)) := by
  by_cases hi : t ≤ i
  · left
    refine ⟨hi, ?_⟩
    match evs with
    | [] | .read _ :: _ | .write _ _ :: _ | .reset :: _ | .answer _ :: _ | .tick :: _ | .engine :: _ =>
      simp [mrRounds, hi]
  · right
    match evs with
    | [] | .read _ :: _ | .write _ _ :: _ | .reset :: _ | .tick :: _ | .engine :: _ =>
      left; simp [mrRounds, hi]; omega
    | .answer ans :: rest =>
      right
      refine ⟨by omega, ans, rest, rfl, ?_⟩
      cases hd : drawValue (witnessReq n) ans with
      | none => left; simp [mrRounds, hi, hd]
      | some a => right; exact ⟨a, rfl, by simp [mrRounds, hi, hd, afterRound]⟩

/-- What a draw yields: its value, in the range asked for, or a failure (R75). -/
theorem drawValue_eq_some {req : RngReq} {ans : RngAnswer} {a : Nat} :
    drawValue req ans = some a ↔ ans.fail = false ∧ req.lo ≤ ans.val ∧ ans.val ≤ req.hi ∧ a = ans.val := by
  unfold drawValue
  cases hf : ans.fail <;> by_cases h1 : ans.val < req.lo <;> by_cases h2 : ans.val > req.hi <;>
    (simp [h1, h2]; try omega)

/-! ### Words of a register -/

@[simp] theorem wordOf_withWord (v i : Nat) (w : Word) : wordOf (withWord v i w) i = w := by
  unfold wordOf withWord
  rw [Nat.add_mul_div_left _ _ (by positivity), Nat.div_eq_of_lt (Nat.mod_lt _ (by positivity)), Nat.zero_add]
  apply BitVec.eq_of_toNat_eq
  rw [BitVec.toNat_ofNat, Nat.add_mul_mod_self_left, Nat.mod_eq_of_lt w.isLt]

end Sys2Proof.Machine
end

