-- ==== Sys2Proof/Laws/State.lean ====
section
/-! SUPPORT. One lemma per field per named update of `State`, each true by `rfl`, so that no later proof unfolds a
record update. Lemmas are named `<update>_<field>`. -/

namespace Sys2Proof.Machine.State

variable (s : State)

/-! ### withScript -/

@[simp] theorem withScript_params (rest : List Event) : (s.withScript rest).params = s.params := rfl
@[simp] theorem withScript_a (rest : List Event) : (s.withScript rest).a = s.a := rfl
@[simp] theorem withScript_b (rest : List Event) : (s.withScript rest).b = s.b := rfl
@[simp] theorem withScript_m (rest : List Event) : (s.withScript rest).m = s.m := rfl
@[simp] theorem withScript_r (rest : List Event) : (s.withScript rest).r = s.r := rfl
@[simp] theorem withScript_x (rest : List Event) : (s.withScript rest).x = s.x := rfl
@[simp] theorem withScript_y (rest : List Event) : (s.withScript rest).y = s.y := rfl
@[simp] theorem withScript_status (rest : List Event) : (s.withScript rest).status = s.status := rfl
@[simp] theorem withScript_ctrl (rest : List Event) : (s.withScript rest).ctrl = s.ctrl := rfl
@[simp] theorem withScript_rounds (rest : List Event) : (s.withScript rest).rounds = s.rounds := rfl
@[simp] theorem withScript_mrs (rest : List Event) : (s.withScript rest).mrs = s.mrs := rfl
@[simp] theorem withScript_mrcnt (rest : List Event) : (s.withScript rest).mrcnt = s.mrcnt := rfl
@[simp] theorem withScript_sign (rest : List Event) : (s.withScript rest).sign = s.sign := rfl
@[simp] theorem withScript_phase (rest : List Event) : (s.withScript rest).phase = s.phase := rfl
@[simp] theorem withScript_work (rest : List Event) : (s.withScript rest).work = s.work := rfl
@[simp] theorem withScript_script (rest : List Event) : (s.withScript rest).script = rest := rfl
@[simp] theorem withScript_rsp (rest : List Event) : (s.withScript rest).rsp = s.rsp := rfl

/-! ### withWork -/

@[simp] theorem withWork_params (w : Work) : (s.withWork w).params = s.params := rfl
@[simp] theorem withWork_a (w : Work) : (s.withWork w).a = s.a := rfl
@[simp] theorem withWork_b (w : Work) : (s.withWork w).b = s.b := rfl
@[simp] theorem withWork_m (w : Work) : (s.withWork w).m = s.m := rfl
@[simp] theorem withWork_r (w : Work) : (s.withWork w).r = s.r := rfl
@[simp] theorem withWork_x (w : Work) : (s.withWork w).x = s.x := rfl
@[simp] theorem withWork_y (w : Work) : (s.withWork w).y = s.y := rfl
@[simp] theorem withWork_status (w : Work) : (s.withWork w).status = s.status := rfl
@[simp] theorem withWork_ctrl (w : Work) : (s.withWork w).ctrl = s.ctrl := rfl
@[simp] theorem withWork_rounds (w : Work) : (s.withWork w).rounds = s.rounds := rfl
@[simp] theorem withWork_mrs (w : Work) : (s.withWork w).mrs = s.mrs := rfl
@[simp] theorem withWork_mrcnt (w : Work) : (s.withWork w).mrcnt = s.mrcnt := rfl
@[simp] theorem withWork_sign (w : Work) : (s.withWork w).sign = s.sign := rfl
@[simp] theorem withWork_phase (w : Work) : (s.withWork w).phase = s.phase := rfl
@[simp] theorem withWork_work (w : Work) : (s.withWork w).work = w := rfl
@[simp] theorem withWork_script (w : Work) : (s.withWork w).script = s.script := rfl
@[simp] theorem withWork_rsp (w : Work) : (s.withWork w).rsp = s.rsp := rfl

/-! ### respond -/

@[simp] theorem respond_params (ans : BusRsp) : (s.respond ans).params = s.params := rfl
@[simp] theorem respond_a (ans : BusRsp) : (s.respond ans).a = s.a := rfl
@[simp] theorem respond_b (ans : BusRsp) : (s.respond ans).b = s.b := rfl
@[simp] theorem respond_m (ans : BusRsp) : (s.respond ans).m = s.m := rfl
@[simp] theorem respond_r (ans : BusRsp) : (s.respond ans).r = s.r := rfl
@[simp] theorem respond_x (ans : BusRsp) : (s.respond ans).x = s.x := rfl
@[simp] theorem respond_y (ans : BusRsp) : (s.respond ans).y = s.y := rfl
@[simp] theorem respond_status (ans : BusRsp) : (s.respond ans).status = s.status := rfl
@[simp] theorem respond_ctrl (ans : BusRsp) : (s.respond ans).ctrl = s.ctrl := rfl
@[simp] theorem respond_rounds (ans : BusRsp) : (s.respond ans).rounds = s.rounds := rfl
@[simp] theorem respond_mrs (ans : BusRsp) : (s.respond ans).mrs = s.mrs := rfl
@[simp] theorem respond_mrcnt (ans : BusRsp) : (s.respond ans).mrcnt = s.mrcnt := rfl
@[simp] theorem respond_sign (ans : BusRsp) : (s.respond ans).sign = s.sign := rfl
@[simp] theorem respond_phase (ans : BusRsp) : (s.respond ans).phase = s.phase := rfl
@[simp] theorem respond_work (ans : BusRsp) : (s.respond ans).work = s.work := rfl
@[simp] theorem respond_script (ans : BusRsp) : (s.respond ans).script = s.script := rfl
@[simp] theorem respond_rsp (ans : BusRsp) : (s.respond ans).rsp = some ans := rfl

/-! ### accept -/

@[simp] theorem accept_params (c : Word) : (s.accept c).params = s.params := rfl
@[simp] theorem accept_a (c : Word) : (s.accept c).a = s.a := rfl
@[simp] theorem accept_b (c : Word) : (s.accept c).b = s.b := rfl
@[simp] theorem accept_m (c : Word) : (s.accept c).m = s.m := rfl
@[simp] theorem accept_r (c : Word) : (s.accept c).r = s.r := rfl
@[simp] theorem accept_x (c : Word) : (s.accept c).x = s.x := rfl
@[simp] theorem accept_y (c : Word) : (s.accept c).y = s.y := rfl
@[simp] theorem accept_status (c : Word) : (s.accept c).status = { s.status with done := false, err := none, prime := false, op := cmdOp c } := rfl
@[simp] theorem accept_ctrl (c : Word) : (s.accept c).ctrl = s.ctrl := rfl
@[simp] theorem accept_rounds (c : Word) : (s.accept c).rounds = s.rounds := rfl
@[simp] theorem accept_mrs (c : Word) : (s.accept c).mrs = s.mrs := rfl
@[simp] theorem accept_mrcnt (c : Word) : (s.accept c).mrcnt = s.mrcnt := rfl
@[simp] theorem accept_sign (c : Word) : (s.accept c).sign = s.sign := rfl
@[simp] theorem accept_phase (c : Word) : (s.accept c).phase = .run c := rfl
@[simp] theorem accept_work (c : Word) : (s.accept c).work = .fresh := rfl
@[simp] theorem accept_script (c : Word) : (s.accept c).script = s.script := rfl
@[simp] theorem accept_rsp (c : Word) : (s.accept c).rsp = s.rsp := rfl

/-! ### complete -/

@[simp] theorem complete_params : s.complete.params = s.params := rfl
@[simp] theorem complete_a : s.complete.a = s.a := rfl
@[simp] theorem complete_b : s.complete.b = s.b := rfl
@[simp] theorem complete_m : s.complete.m = s.m := rfl
@[simp] theorem complete_r : s.complete.r = s.r := rfl
@[simp] theorem complete_x : s.complete.x = s.x := rfl
@[simp] theorem complete_y : s.complete.y = s.y := rfl
@[simp] theorem complete_status : s.complete.status = { s.status with err := none, done := true } := rfl
@[simp] theorem complete_ctrl : s.complete.ctrl = s.ctrl := rfl
@[simp] theorem complete_rounds : s.complete.rounds = s.rounds := rfl
@[simp] theorem complete_mrs : s.complete.mrs = s.mrs := rfl
@[simp] theorem complete_mrcnt : s.complete.mrcnt = s.mrcnt := rfl
@[simp] theorem complete_sign : s.complete.sign = s.sign := rfl
@[simp] theorem complete_phase : s.complete.phase = .idle := rfl
@[simp] theorem complete_work : s.complete.work = .fresh := rfl
@[simp] theorem complete_script : s.complete.script = s.script := rfl
@[simp] theorem complete_rsp : s.complete.rsp = s.rsp := rfl

/-! ### takeError -/

@[simp] theorem takeError_params (e : CmdError) : (s.takeError e).params = s.params := rfl
@[simp] theorem takeError_a (e : CmdError) : (s.takeError e).a = s.a := rfl
@[simp] theorem takeError_b (e : CmdError) : (s.takeError e).b = s.b := rfl
@[simp] theorem takeError_m (e : CmdError) : (s.takeError e).m = s.m := rfl
@[simp] theorem takeError_r (e : CmdError) : (s.takeError e).r = s.r := rfl
@[simp] theorem takeError_x (e : CmdError) : (s.takeError e).x = s.x := rfl
@[simp] theorem takeError_y (e : CmdError) : (s.takeError e).y = s.y := rfl
@[simp] theorem takeError_status (e : CmdError) : (s.takeError e).status = { s.status with err := some e, done := true } := rfl
@[simp] theorem takeError_ctrl (e : CmdError) : (s.takeError e).ctrl = s.ctrl := rfl
@[simp] theorem takeError_rounds (e : CmdError) : (s.takeError e).rounds = s.rounds := rfl
@[simp] theorem takeError_mrs (e : CmdError) : (s.takeError e).mrs = s.mrs := rfl
@[simp] theorem takeError_mrcnt (e : CmdError) : (s.takeError e).mrcnt = s.mrcnt := rfl
@[simp] theorem takeError_sign (e : CmdError) : (s.takeError e).sign = s.sign := rfl
@[simp] theorem takeError_phase (e : CmdError) : (s.takeError e).phase = .idle := rfl
@[simp] theorem takeError_work (e : CmdError) : (s.takeError e).work = .fresh := rfl
@[simp] theorem takeError_script (e : CmdError) : (s.takeError e).script = s.script := rfl
@[simp] theorem takeError_rsp (e : CmdError) : (s.takeError e).rsp = s.rsp := rfl

/-! ### flagWrBusy -/

@[simp] theorem flagWrBusy_params : s.flagWrBusy.params = s.params := rfl
@[simp] theorem flagWrBusy_a : s.flagWrBusy.a = s.a := rfl
@[simp] theorem flagWrBusy_b : s.flagWrBusy.b = s.b := rfl
@[simp] theorem flagWrBusy_m : s.flagWrBusy.m = s.m := rfl
@[simp] theorem flagWrBusy_r : s.flagWrBusy.r = s.r := rfl
@[simp] theorem flagWrBusy_x : s.flagWrBusy.x = s.x := rfl
@[simp] theorem flagWrBusy_y : s.flagWrBusy.y = s.y := rfl
@[simp] theorem flagWrBusy_status : s.flagWrBusy.status = { s.status with wrBusy := true } := rfl
@[simp] theorem flagWrBusy_ctrl : s.flagWrBusy.ctrl = s.ctrl := rfl
@[simp] theorem flagWrBusy_rounds : s.flagWrBusy.rounds = s.rounds := rfl
@[simp] theorem flagWrBusy_mrs : s.flagWrBusy.mrs = s.mrs := rfl
@[simp] theorem flagWrBusy_mrcnt : s.flagWrBusy.mrcnt = s.mrcnt := rfl
@[simp] theorem flagWrBusy_sign : s.flagWrBusy.sign = s.sign := rfl
@[simp] theorem flagWrBusy_phase : s.flagWrBusy.phase = s.phase := rfl
@[simp] theorem flagWrBusy_work : s.flagWrBusy.work = s.work := rfl
@[simp] theorem flagWrBusy_script : s.flagWrBusy.script = s.script := rfl
@[simp] theorem flagWrBusy_rsp : s.flagWrBusy.rsp = s.rsp := rfl

/-! ### clearFlags -/

@[simp] theorem clearFlags_params (v : Word) : (s.clearFlags v).params = s.params := rfl
@[simp] theorem clearFlags_a (v : Word) : (s.clearFlags v).a = s.a := rfl
@[simp] theorem clearFlags_b (v : Word) : (s.clearFlags v).b = s.b := rfl
@[simp] theorem clearFlags_m (v : Word) : (s.clearFlags v).m = s.m := rfl
@[simp] theorem clearFlags_r (v : Word) : (s.clearFlags v).r = s.r := rfl
@[simp] theorem clearFlags_x (v : Word) : (s.clearFlags v).x = s.x := rfl
@[simp] theorem clearFlags_y (v : Word) : (s.clearFlags v).y = s.y := rfl
@[simp] theorem clearFlags_status (v : Word) : (s.clearFlags v).status = { s.status with done := s.status.done && !v.getLsbD 1, err := if v.getLsbD 2 then none else s.status.err, wrBusy := s.status.wrBusy && !v.getLsbD 4 } := rfl
@[simp] theorem clearFlags_ctrl (v : Word) : (s.clearFlags v).ctrl = s.ctrl := rfl
@[simp] theorem clearFlags_rounds (v : Word) : (s.clearFlags v).rounds = s.rounds := rfl
@[simp] theorem clearFlags_mrs (v : Word) : (s.clearFlags v).mrs = s.mrs := rfl
@[simp] theorem clearFlags_mrcnt (v : Word) : (s.clearFlags v).mrcnt = s.mrcnt := rfl
@[simp] theorem clearFlags_sign (v : Word) : (s.clearFlags v).sign = s.sign := rfl
@[simp] theorem clearFlags_phase (v : Word) : (s.clearFlags v).phase = s.phase := rfl
@[simp] theorem clearFlags_work (v : Word) : (s.clearFlags v).work = s.work := rfl
@[simp] theorem clearFlags_script (v : Word) : (s.clearFlags v).script = s.script := rfl
@[simp] theorem clearFlags_rsp (v : Word) : (s.clearFlags v).rsp = s.rsp := rfl

/-! ### writeNone -/

@[simp] theorem writeNone_params : (s.writeResults .none).params = s.params := rfl
@[simp] theorem writeNone_a : (s.writeResults .none).a = s.a := rfl
@[simp] theorem writeNone_b : (s.writeResults .none).b = s.b := rfl
@[simp] theorem writeNone_m : (s.writeResults .none).m = s.m := rfl
@[simp] theorem writeNone_r : (s.writeResults .none).r = s.r := rfl
@[simp] theorem writeNone_x : (s.writeResults .none).x = s.x := rfl
@[simp] theorem writeNone_y : (s.writeResults .none).y = s.y := rfl
@[simp] theorem writeNone_status : (s.writeResults .none).status = s.status := rfl
@[simp] theorem writeNone_ctrl : (s.writeResults .none).ctrl = s.ctrl := rfl
@[simp] theorem writeNone_rounds : (s.writeResults .none).rounds = s.rounds := rfl
@[simp] theorem writeNone_mrs : (s.writeResults .none).mrs = s.mrs := rfl
@[simp] theorem writeNone_mrcnt : (s.writeResults .none).mrcnt = s.mrcnt := rfl
@[simp] theorem writeNone_sign : (s.writeResults .none).sign = s.sign := rfl
@[simp] theorem writeNone_phase : (s.writeResults .none).phase = s.phase := rfl
@[simp] theorem writeNone_work : (s.writeResults .none).work = s.work := rfl
@[simp] theorem writeNone_script : (s.writeResults .none).script = s.script := rfl
@[simp] theorem writeNone_rsp : (s.writeResults .none).rsp = s.rsp := rfl

/-! ### writeValue -/

@[simp] theorem writeValue_params (v : Nat) : (s.writeResults (.value v)).params = s.params := rfl
@[simp] theorem writeValue_a (v : Nat) : (s.writeResults (.value v)).a = s.a := rfl
@[simp] theorem writeValue_b (v : Nat) : (s.writeResults (.value v)).b = s.b := rfl
@[simp] theorem writeValue_m (v : Nat) : (s.writeResults (.value v)).m = s.m := rfl
@[simp] theorem writeValue_r (v : Nat) : (s.writeResults (.value v)).r = v := rfl
@[simp] theorem writeValue_x (v : Nat) : (s.writeResults (.value v)).x = s.x := rfl
@[simp] theorem writeValue_y (v : Nat) : (s.writeResults (.value v)).y = s.y := rfl
@[simp] theorem writeValue_status (v : Nat) : (s.writeResults (.value v)).status = s.status := rfl
@[simp] theorem writeValue_ctrl (v : Nat) : (s.writeResults (.value v)).ctrl = s.ctrl := rfl
@[simp] theorem writeValue_rounds (v : Nat) : (s.writeResults (.value v)).rounds = s.rounds := rfl
@[simp] theorem writeValue_mrs (v : Nat) : (s.writeResults (.value v)).mrs = s.mrs := rfl
@[simp] theorem writeValue_mrcnt (v : Nat) : (s.writeResults (.value v)).mrcnt = s.mrcnt := rfl
@[simp] theorem writeValue_sign (v : Nat) : (s.writeResults (.value v)).sign = s.sign := rfl
@[simp] theorem writeValue_phase (v : Nat) : (s.writeResults (.value v)).phase = s.phase := rfl
@[simp] theorem writeValue_work (v : Nat) : (s.writeResults (.value v)).work = s.work := rfl
@[simp] theorem writeValue_script (v : Nat) : (s.writeResults (.value v)).script = s.script := rfl
@[simp] theorem writeValue_rsp (v : Nat) : (s.writeResults (.value v)).rsp = s.rsp := rfl

/-! ### writeBezout -/

@[simp] theorem writeBezout_params (g : Nat) (p q : Int) : (s.writeResults (.bezout g p q)).params = s.params := rfl
@[simp] theorem writeBezout_a (g : Nat) (p q : Int) : (s.writeResults (.bezout g p q)).a = s.a := rfl
@[simp] theorem writeBezout_b (g : Nat) (p q : Int) : (s.writeResults (.bezout g p q)).b = s.b := rfl
@[simp] theorem writeBezout_m (g : Nat) (p q : Int) : (s.writeResults (.bezout g p q)).m = s.m := rfl
@[simp] theorem writeBezout_r (g : Nat) (p q : Int) : (s.writeResults (.bezout g p q)).r = g := rfl
@[simp] theorem writeBezout_x (g : Nat) (p q : Int) : (s.writeResults (.bezout g p q)).x = p.natAbs := rfl
@[simp] theorem writeBezout_y (g : Nat) (p q : Int) : (s.writeResults (.bezout g p q)).y = q.natAbs := rfl
@[simp] theorem writeBezout_status (g : Nat) (p q : Int) : (s.writeResults (.bezout g p q)).status = s.status := rfl
@[simp] theorem writeBezout_ctrl (g : Nat) (p q : Int) : (s.writeResults (.bezout g p q)).ctrl = s.ctrl := rfl
@[simp] theorem writeBezout_rounds (g : Nat) (p q : Int) : (s.writeResults (.bezout g p q)).rounds = s.rounds := rfl
@[simp] theorem writeBezout_mrs (g : Nat) (p q : Int) : (s.writeResults (.bezout g p q)).mrs = s.mrs := rfl
@[simp] theorem writeBezout_mrcnt (g : Nat) (p q : Int) : (s.writeResults (.bezout g p q)).mrcnt = s.mrcnt := rfl
@[simp] theorem writeBezout_sign (g : Nat) (p q : Int) : (s.writeResults (.bezout g p q)).sign = { s.sign with xs := decide (p < 0), ys := decide (q < 0) } := rfl
@[simp] theorem writeBezout_phase (g : Nat) (p q : Int) : (s.writeResults (.bezout g p q)).phase = s.phase := rfl
@[simp] theorem writeBezout_work (g : Nat) (p q : Int) : (s.writeResults (.bezout g p q)).work = s.work := rfl
@[simp] theorem writeBezout_script (g : Nat) (p q : Int) : (s.writeResults (.bezout g p q)).script = s.script := rfl
@[simp] theorem writeBezout_rsp (g : Nat) (p q : Int) : (s.writeResults (.bezout g p q)).rsp = s.rsp := rfl

/-! ### writeVerdict -/

@[simp] theorem writeVerdict_params (v : Bool) (e cnt : Nat) : (s.writeResults (.verdict v e cnt)).params = s.params := rfl
@[simp] theorem writeVerdict_a (v : Bool) (e cnt : Nat) : (s.writeResults (.verdict v e cnt)).a = s.a := rfl
@[simp] theorem writeVerdict_b (v : Bool) (e cnt : Nat) : (s.writeResults (.verdict v e cnt)).b = s.b := rfl
@[simp] theorem writeVerdict_m (v : Bool) (e cnt : Nat) : (s.writeResults (.verdict v e cnt)).m = s.m := rfl
@[simp] theorem writeVerdict_r (v : Bool) (e cnt : Nat) : (s.writeResults (.verdict v e cnt)).r = s.r := rfl
@[simp] theorem writeVerdict_x (v : Bool) (e cnt : Nat) : (s.writeResults (.verdict v e cnt)).x = s.x := rfl
@[simp] theorem writeVerdict_y (v : Bool) (e cnt : Nat) : (s.writeResults (.verdict v e cnt)).y = s.y := rfl
@[simp] theorem writeVerdict_status (v : Bool) (e cnt : Nat) : (s.writeResults (.verdict v e cnt)).status = { s.status with prime := v } := rfl
@[simp] theorem writeVerdict_ctrl (v : Bool) (e cnt : Nat) : (s.writeResults (.verdict v e cnt)).ctrl = s.ctrl := rfl
@[simp] theorem writeVerdict_rounds (v : Bool) (e cnt : Nat) : (s.writeResults (.verdict v e cnt)).rounds = s.rounds := rfl
@[simp] theorem writeVerdict_mrs (v : Bool) (e cnt : Nat) : (s.writeResults (.verdict v e cnt)).mrs = BitVec.ofNat 32 e := rfl
@[simp] theorem writeVerdict_mrcnt (v : Bool) (e cnt : Nat) : (s.writeResults (.verdict v e cnt)).mrcnt = BitVec.ofNat 32 cnt := rfl
@[simp] theorem writeVerdict_sign (v : Bool) (e cnt : Nat) : (s.writeResults (.verdict v e cnt)).sign = s.sign := rfl
@[simp] theorem writeVerdict_phase (v : Bool) (e cnt : Nat) : (s.writeResults (.verdict v e cnt)).phase = s.phase := rfl
@[simp] theorem writeVerdict_work (v : Bool) (e cnt : Nat) : (s.writeResults (.verdict v e cnt)).work = s.work := rfl
@[simp] theorem writeVerdict_script (v : Bool) (e cnt : Nat) : (s.writeResults (.verdict v e cnt)).script = s.script := rfl
@[simp] theorem writeVerdict_rsp (v : Bool) (e cnt : Nat) : (s.writeResults (.verdict v e cnt)).rsp = s.rsp := rfl

/-! ### setA -/

@[simp] theorem setA_params (v : Nat) : (s.setOperand .A v).params = s.params := rfl
@[simp] theorem setA_a (v : Nat) : (s.setOperand .A v).a = v := rfl
@[simp] theorem setA_b (v : Nat) : (s.setOperand .A v).b = s.b := rfl
@[simp] theorem setA_m (v : Nat) : (s.setOperand .A v).m = s.m := rfl
@[simp] theorem setA_r (v : Nat) : (s.setOperand .A v).r = s.r := rfl
@[simp] theorem setA_x (v : Nat) : (s.setOperand .A v).x = s.x := rfl
@[simp] theorem setA_y (v : Nat) : (s.setOperand .A v).y = s.y := rfl
@[simp] theorem setA_status (v : Nat) : (s.setOperand .A v).status = s.status := rfl
@[simp] theorem setA_ctrl (v : Nat) : (s.setOperand .A v).ctrl = s.ctrl := rfl
@[simp] theorem setA_rounds (v : Nat) : (s.setOperand .A v).rounds = s.rounds := rfl
@[simp] theorem setA_mrs (v : Nat) : (s.setOperand .A v).mrs = s.mrs := rfl
@[simp] theorem setA_mrcnt (v : Nat) : (s.setOperand .A v).mrcnt = s.mrcnt := rfl
@[simp] theorem setA_sign (v : Nat) : (s.setOperand .A v).sign = s.sign := rfl
@[simp] theorem setA_phase (v : Nat) : (s.setOperand .A v).phase = s.phase := rfl
@[simp] theorem setA_work (v : Nat) : (s.setOperand .A v).work = s.work := rfl
@[simp] theorem setA_script (v : Nat) : (s.setOperand .A v).script = s.script := rfl
@[simp] theorem setA_rsp (v : Nat) : (s.setOperand .A v).rsp = s.rsp := rfl

/-! ### setB -/

@[simp] theorem setB_params (v : Nat) : (s.setOperand .B v).params = s.params := rfl
@[simp] theorem setB_a (v : Nat) : (s.setOperand .B v).a = s.a := rfl
@[simp] theorem setB_b (v : Nat) : (s.setOperand .B v).b = v := rfl
@[simp] theorem setB_m (v : Nat) : (s.setOperand .B v).m = s.m := rfl
@[simp] theorem setB_r (v : Nat) : (s.setOperand .B v).r = s.r := rfl
@[simp] theorem setB_x (v : Nat) : (s.setOperand .B v).x = s.x := rfl
@[simp] theorem setB_y (v : Nat) : (s.setOperand .B v).y = s.y := rfl
@[simp] theorem setB_status (v : Nat) : (s.setOperand .B v).status = s.status := rfl
@[simp] theorem setB_ctrl (v : Nat) : (s.setOperand .B v).ctrl = s.ctrl := rfl
@[simp] theorem setB_rounds (v : Nat) : (s.setOperand .B v).rounds = s.rounds := rfl
@[simp] theorem setB_mrs (v : Nat) : (s.setOperand .B v).mrs = s.mrs := rfl
@[simp] theorem setB_mrcnt (v : Nat) : (s.setOperand .B v).mrcnt = s.mrcnt := rfl
@[simp] theorem setB_sign (v : Nat) : (s.setOperand .B v).sign = s.sign := rfl
@[simp] theorem setB_phase (v : Nat) : (s.setOperand .B v).phase = s.phase := rfl
@[simp] theorem setB_work (v : Nat) : (s.setOperand .B v).work = s.work := rfl
@[simp] theorem setB_script (v : Nat) : (s.setOperand .B v).script = s.script := rfl
@[simp] theorem setB_rsp (v : Nat) : (s.setOperand .B v).rsp = s.rsp := rfl

/-! ### setM -/

@[simp] theorem setM_params (v : Nat) : (s.setOperand .M v).params = s.params := rfl
@[simp] theorem setM_a (v : Nat) : (s.setOperand .M v).a = s.a := rfl
@[simp] theorem setM_b (v : Nat) : (s.setOperand .M v).b = s.b := rfl
@[simp] theorem setM_m (v : Nat) : (s.setOperand .M v).m = v := rfl
@[simp] theorem setM_r (v : Nat) : (s.setOperand .M v).r = s.r := rfl
@[simp] theorem setM_x (v : Nat) : (s.setOperand .M v).x = s.x := rfl
@[simp] theorem setM_y (v : Nat) : (s.setOperand .M v).y = s.y := rfl
@[simp] theorem setM_status (v : Nat) : (s.setOperand .M v).status = s.status := rfl
@[simp] theorem setM_ctrl (v : Nat) : (s.setOperand .M v).ctrl = s.ctrl := rfl
@[simp] theorem setM_rounds (v : Nat) : (s.setOperand .M v).rounds = s.rounds := rfl
@[simp] theorem setM_mrs (v : Nat) : (s.setOperand .M v).mrs = s.mrs := rfl
@[simp] theorem setM_mrcnt (v : Nat) : (s.setOperand .M v).mrcnt = s.mrcnt := rfl
@[simp] theorem setM_sign (v : Nat) : (s.setOperand .M v).sign = s.sign := rfl
@[simp] theorem setM_phase (v : Nat) : (s.setOperand .M v).phase = s.phase := rfl
@[simp] theorem setM_work (v : Nat) : (s.setOperand .M v).work = s.work := rfl
@[simp] theorem setM_script (v : Nat) : (s.setOperand .M v).script = s.script := rfl
@[simp] theorem setM_rsp (v : Nat) : (s.setOperand .M v).rsp = s.rsp := rfl

/-! ### Results and outcomes -/

@[simp] theorem setOperand_result (k : RegIdx) (v : Nat) (h : k.isOperand = false) : s.setOperand k v = s := by
  cases k <;> first | rfl | cases h

@[simp] theorem commit_ok (w : Results) : s.commit (.ok w) = (s.writeResults w).complete := rfl
@[simp] theorem commit_error (e : CmdError) : s.commit (.error e) = s.takeError e := rfl

/-! ### reinit -/

theorem reinit_eq : s.reinit = (State.resetFor s.params).withScript s.script := rfl
@[simp] theorem reinit_params : s.reinit.params = s.params := rfl
@[simp] theorem reinit_script : s.reinit.script = s.script := rfl
@[simp] theorem reinit_phase : s.reinit.phase = .idle := rfl
@[simp] theorem reinit_work : s.reinit.work = .fresh := rfl
@[simp] theorem reinit_status : s.reinit.status = ⟨false, none, false, false, 0#8⟩ := rfl

/-! ### Twice the same update -/

@[simp] theorem withScript_withScript (p q : List Event) : (s.withScript p).withScript q = s.withScript q := rfl
@[simp] theorem withScript_self : s.withScript s.script = s := rfl
@[simp] theorem withWork_withWork (v w : Work) : (s.withWork v).withWork w = s.withWork w := rfl
@[simp] theorem withWork_self : s.withWork s.work = s := rfl
@[simp] theorem withScript_withWork (p : List Event) (w : Work) :
    (s.withScript p).withWork w = (s.withWork w).withScript p := rfl

end Sys2Proof.Machine.State
end

