-- ==== Sys2Proof/Laws/Bus.lean ====
section
/-! SUPPORT. What a bus transaction can do, said once: the register map, the cases of a write, and what a read looks
at. -/

namespace Sys2Proof.Machine

/-! ### The register map -/

theorem strideReg_index (k : RegIdx) : strideReg (k.index + 1) = some k := by cases k <;> rfl

/-- The offset of word `i` of register `k` leads there (R61). -/
theorem target_word {p : Params} {k : RegIdx} {i : Nat} {addr : Offset} (hw : p.nw ≤ 1024) (hi : i < p.nw)
    (ha : addr.toNat = 0x1000 * (k.index + 1) + 4 * i) : target p addr = .word k i := by
  have h1 : addr.toNat / 0x1000 = k.index + 1 := by omega
  have h2 : addr.toNat % 0x1000 / 4 = i := by omega
  simp [target, h1, h2, strideReg_index, hi, show ¬ addr.toNat % 4 ≠ 0 by omega,
    show ¬ addr.toNat < 0x1000 by omega]

/-- Only its own offset leads to a word of a register (R61). -/
theorem target_eq_word {p : Params} {k : RegIdx} {i : Nat} {addr : Offset} (h : target p addr = .word k i) :
    i < p.nw ∧ addr.toNat = 0x1000 * (k.index + 1) + 4 * i := by
  have hlt : addr.toNat < 32768 := addr.isLt
  by_cases h4 : addr.toNat % 4 ≠ 0
  · simp [target, h4] at h
  by_cases hc : addr.toNat < 0x1000
  · simp only [target, h4, if_false, hc, if_true] at h
    unfold controlTarget at h
    split at h <;> cases h
  · simp only [target, h4, if_false, hc] at h
    split at h
    · rename_i k' hk
      split at h
      · cases h
        refine ⟨by assumption, ?_⟩
        have hidx : addr.toNat / 0x1000 = k.index + 1 := by
          unfold strideReg at hk
          split at hk <;> cases hk <;> assumption
        omega
      · cases h
    · cases h

/-! ### Writes -/

/-- The targets a busy block does not let the host write (R72). -/
def Target.guarded : Target → Bool
  | .cmd | .rounds | .sign => true
  | .word k _ => k.isOperand
  | .misaligned | .unmapped | .id | .cfg | .status | .ctrl | .mrs | .mrcnt => false

/-- Everything a write transaction can do to the block (R65). -/
theorem memWrite_cases (s : State) (addr : Offset) (v : Word) :
    ((s.memWrite addr v).1 = s ∧ (target s.params addr).guarded = false) ∨
    (target s.params addr = .status ∧ s.memWrite addr v = (s.clearFlags v, false)) ∨
    (target s.params addr = .ctrl ∧ s.memWrite addr v = ({ s with ctrl := ⟨v.getLsbD 0, v.getLsbD 1⟩ }, false)) ∨
    ((target s.params addr).guarded = true ∧ s.busy = true ∧ s.memWrite addr v = (s.flagWrBusy, false)) ∨
    ((target s.params addr).guarded = true ∧ s.busy = false ∧
      s.memWrite addr v = (s.writeIdle v (target s.params addr), false)) := by
  unfold State.memWrite
  cases target s.params addr with
  | word k i => cases hk : k.isOperand <;> cases hb : s.busy <;> simp [State.writeTarget, Target.guarded, hk, hb]
  | cmd | rounds | sign => cases hb : s.busy <;> simp [State.writeTarget, Target.guarded, hb]
  | misaligned | unmapped | id | cfg | status | ctrl | mrs | mrcnt =>
    simp [State.writeTarget, Target.guarded]

/-- Everything an idle write can do (R65). -/
theorem writeIdle_cases (s : State) (v : Word) (t : Target) :
    (t = .cmd ∧ s.writeIdle v t = s.accept v) ∨
    (t = .rounds ∧ s.writeIdle v t = { s with rounds := v }) ∨
    (t = .sign ∧ s.writeIdle v t = { s with sign := { s.sign with as := v.getLsbD 0, bs := v.getLsbD 1 } }) ∨
    (∃ k i, t = .word k i ∧ s.writeIdle v t = s.setOperand k (withWord (s.regValue k) i v)) ∨
    s.writeIdle v t = s := by
  cases t <;> simp [State.writeIdle]

/-! ### Reads -/

/-- A read looks at no hidden state, no input and no earlier answer: two states with the same registers and phase read
the same at every offset (R20, R64). -/
theorem memRead_congr {s t : State} (hp : t.params = s.params) (hr : ∀ k, t.regValue k = s.regValue k)
    (hs : t.status = s.status) (hc : t.ctrl = s.ctrl) (ho : t.rounds = s.rounds) (hm : t.mrs = s.mrs)
    (hn : t.mrcnt = s.mrcnt) (hg : t.sign = s.sign) (hb : t.busy = s.busy) (addr : Offset) :
    t.memRead addr = s.memRead addr := by
  unfold State.memRead
  rw [hp]
  cases target s.params addr <;>
    simp [State.readTarget, State.statusWord, State.ctrlWord, State.signWord, State.errf, hp, hr, hs, hc, ho, hm, hn,
      hg, hb]

end Sys2Proof.Machine
end

