-- ==== Sys2Proof/Laws/Engine.lean ====
section
/-! SUPPORT. What the engine and a step can do, said once. -/

namespace Sys2Proof.Machine

/-- Everything a command can do when the engine runs it on: commit an outcome, or, for MRTEST, wait for a draw. -/
theorem exec_cases {i : Instr} {s t : State} (h : exec i s = .next t) :
    (∃ o rest, t = (s.withScript rest).commit o ∧ (i ≠ .mrtest → rest = s.script)) ∨
    (i = .mrtest ∧ smallVerdict s.m = none ∧ ∃ d e j rest,
      mrResume s.m s.rounds.toNat s.script s.work = .waiting d e j rest ∧
      t = (s.withScript rest).withWork (.mrAwait d e j (witnessReq s.m))) := by
  cases i with
  | nop => cases h; exact .inl ⟨_, s.script, rfl, fun _ => rfl⟩
  | modmul => cases h; exact .inl ⟨_, s.script, rfl, fun _ => rfl⟩
  | modexp => cases h; exact .inl ⟨_, s.script, rfl, fun _ => rfl⟩
  | egcd => cases h; exact .inl ⟨_, s.script, rfl, fun _ => rfl⟩
  | modinv => cases h; exact .inl ⟨_, s.script, rfl, fun _ => rfl⟩
  | mrwit => cases h; exact .inl ⟨_, s.script, rfl, fun _ => rfl⟩
  | montmul => cases h; exact .inl ⟨_, s.script, rfl, fun _ => rfl⟩
  | mrtest =>
    simp only [exec, execMrtest] at h
    split at h
    · cases h; exact .inl ⟨_, s.script, rfl, fun _ => rfl⟩
    · rename_i hv
      split at h
      · cases h; exact .inl ⟨_, _, rfl, fun hne => absurd rfl hne⟩
      · cases h; exact .inl ⟨_, _, rfl, fun hne => absurd rfl hne⟩
      · rename_i d e j rest hm
        cases h; exact .inr ⟨rfl, hv, d, e, j, rest, hm, rfl⟩

/-- Everything a step can do. -/
theorem step_cases {s t : State} (h : step s = .next t) :
    (s.script = [] ∧ engineTurn s = .next t) ∨
    (∃ rest, s.script = .engine :: rest ∧ engineTurn (s.withScript rest) = .next t) ∨
    (∃ rest, s.script = .tick :: rest ∧ t = (s.withScript rest).engineTick) ∨
    (∃ ans rest, s.script = .answer ans :: rest ∧ t = (s.withScript rest).sampleAnswer ans) ∨
    (∃ addr rest, s.script = .read addr :: rest ∧ t = (s.withScript rest).busRead addr) ∨
    (∃ addr v rest, s.script = .write addr v :: rest ∧ t = (s.withScript rest).busWrite addr v) ∨
    (∃ rest, s.script = .reset :: rest ∧ t = (s.withScript rest).reinit) := by
  unfold step nextEvent at h
  split at h
  all_goals first
    | (rename_i hs; cases h; simp [hs])
    | (rename_i hs; simp [hs, h])

/-- Everything the engine's turn can do: nothing while idle; else it ends a word that is no command, or runs one on. -/
theorem engineTurn_cases {s t : State} (h : engineTurn s = .next t) :
    (s.phase = .idle ∧ t = s) ∨
    (∃ c err, s.phase = .run c ∧ decode c = .error err ∧ t = s.takeError .illegalCommand) ∨
    (∃ c i, s.phase = .run c ∧ decode c = .ok i ∧ exec i s = .next t) := by
  unfold engineTurn at h
  split at h
  · rename_i hp; cases h; exact .inl ⟨hp, rfl⟩
  · rename_i c hp
    unfold runWord at h
    split at h
    · rename_i i hd; exact .inr (.inr ⟨c, i, hp, hd, h⟩)
    · rename_i err hd; cases h; exact .inr (.inl ⟨c, err, hp, hd, rfl⟩)

/-- An engine iteration moves hidden state only (R29). -/
theorem engineTick_eq (s : State) : ∃ w, s.engineTick = s.withWork w := by
  unfold State.engineTick
  split
  · exact ⟨s.work, rfl⟩
  · split
    · exact ⟨_, rfl⟩
    · exact ⟨s.work, rfl⟩

/-- Everything an answer of the randomness source can do (R75). -/
theorem sampleAnswer_cases (s : State) (ans : RngAnswer) :
    s.sampleAnswer ans = s ∨
    ∃ d e i req, s.work = .mrAwait d e i req ∧
      ((drawValue req ans = none ∧ s.sampleAnswer ans = s.takeError .rngFailure) ∨
       ∃ a, drawValue req ans = some a ∧
        s.sampleAnswer ans = s.withWork (.mrPow d e i a (PowWork.start a d s.m))) := by
  unfold State.sampleAnswer
  split
  · rename_i d e i req hw
    right
    refine ⟨d, e, i, req, hw, ?_⟩
    cases hd : drawValue req ans with
    | none => exact .inl ⟨rfl, rfl⟩
    | some a => exact .inr ⟨a, rfl, rfl⟩
  · exact .inl rfl

end Sys2Proof.Machine
end

