-- ==== Sys2Proof/Laws/PerInstr.lean ====
section
/-! SUPPORT. Statements about every command as syntax, one lemma per constructor. -/

namespace Sys2Proof.Laws.ReservedBitsZero

/-- R90: the reserved field of a command's word is 0, and the field `op` is its opcode. -/
def Statement (i : Instr) : Prop := cmdRsv (encode i) = 0 ∧ cmdOp (encode i) = i.opcode

theorem nop : Statement .nop := ⟨rfl, rfl⟩
theorem modmul : Statement .modmul := ⟨rfl, rfl⟩
theorem modexp : Statement .modexp := ⟨rfl, rfl⟩
theorem egcd : Statement .egcd := ⟨rfl, rfl⟩
theorem modinv : Statement .modinv := ⟨rfl, rfl⟩
theorem mrtest : Statement .mrtest := ⟨rfl, rfl⟩
theorem mrwit : Statement .mrwit := ⟨rfl, rfl⟩
theorem montmul : Statement .montmul := ⟨rfl, rfl⟩

end Sys2Proof.Laws.ReservedBitsZero
end

