-- ==== Sys2Proof/Tests/Slice0.lean ====
section
/-! SUPPORT. The model's own tests. Every expected value is one of 95_test_vectors.md (section named) or is written out
from the rule named. The second half holds, for every statement with hypotheses, a concrete state and operands that
meet them. -/

namespace Sys2Proof.Tests

open Sys2Proof Sys2Proof.Machine

/-! ### Helpers -/

/-- A block of `nw` words with loaded operands. -/
def loaded (nw a b m : Nat) : State := { State.resetFor ⟨nw, true⟩ with a := a, b := b, m := m }

/-- The same, with the command accepted and the engine's turn next. -/
def accepted (i : Instr) (nw a b m : Nat) : State := ((loaded nw a b m).accept (encode i)).withScript []

/-- MRTEST accepted with a round count and the answers its draws get. -/
def testing (n : Nat) (t : Word) (draws : List RngAnswer) : State :=
  { accepted .mrtest 1 0 0 n with rounds := t, script := draws.map .answer }

/-- A field of the state after one step. -/
def after {α : Type} (f : State → α) (s : State) : Option α :=
  match step s with
  | .next t => some (f t)
  | .fault _ | .refused _ => none

/-- An answer within the source's duty. -/
def good (v : Nat) : RngAnswer := ⟨v, false⟩

/-! ### Well-formedness: each check refuses an ill-formed term (R9, R93) -/

theorem test_wf_refuses_width_zero : Params.wf ⟨0, true⟩ = false := by decide
theorem test_wf_refuses_width_above_32768 : Params.wf ⟨1025, true⟩ = false := by decide
theorem test_wf_accepts_the_extreme_widths : Params.wf ⟨1, true⟩ = true ∧ Params.wf ⟨1024, false⟩ = true := by decide
theorem test_wf_refuses_montmul_without_mont : Instr.wf ⟨1, false⟩ .montmul = false := by decide

/-! ### Decoding, words of R91 written out bit by bit: reserved 31:8, then op 7:0 -/

theorem test_decode_nop : decode 0b000000000000000000000000_00000000#32 = .ok .nop := by decide
theorem test_decode_modmul : decode 0b000000000000000000000000_00000001#32 = .ok .modmul := by decide
theorem test_decode_modexp : decode 0b000000000000000000000000_00000010#32 = .ok .modexp := by decide
theorem test_decode_egcd : decode 0b000000000000000000000000_00000011#32 = .ok .egcd := by decide
theorem test_decode_modinv : decode 0b000000000000000000000000_00000100#32 = .ok .modinv := by decide
theorem test_decode_mrtest : decode 0b000000000000000000000000_00000101#32 = .ok .mrtest := by decide
theorem test_decode_mrwit : decode 0b000000000000000000000000_00000110#32 = .ok .mrwit := by decide
theorem test_decode_montmul : decode 0b000000000000000000000000_00000111#32 = .ok .montmul := by decide
theorem test_decode_refuses_reserved_bit : decodeTableWord 32 0x00000102 = none := by decide
theorem test_decode_refuses_reserved_opcode : decodeTableWord 32 0x00000008 = none := by decide

/-! ### Commands (95_test_vectors.md sections 2 to 9), one engine turn after acceptance -/

theorem test_nop : after State.statusWord (accepted .nop 1 5 7 13) = some 0x00000002#32 := by decide
theorem test_modmul_above_modulus :
    after State.r (accepted .modmul 1 0xFFFFFFFF 0xFFFFFFFF 0xFFFFFFFE) = some 1 := by decide
theorem test_modmul_zero_modulus :
    after State.statusWord (accepted .modmul 1 5 7 0) = some 0x00010106#32 := by decide
theorem test_modexp_source_example : after State.r (accepted .modexp 1 4 13 497) = some 445 := by decide
theorem test_modexp_modulus_one : after State.r (accepted .modexp 1 9 0 1) = some 0 := by decide
theorem test_egcd_coefficients :
    after (fun t => (t.r, t.x, t.y, t.signWord)) (accepted .egcd 1 240 46 0) = some (2, 9, 47, 0x10#32) := by decide
theorem test_egcd_normalised :
    after (fun t => (t.r, t.x, t.y, t.signWord))
      { accepted .egcd 1 3 6 0 with sign := ⟨true, false, false, false⟩ } = some (3, 1, 0, 0x11#32) := by decide
theorem test_modinv_negative_coefficient : after State.r (accepted .modinv 1 17 0 3120) = some 2753 := by decide
theorem test_modinv_not_invertible :
    after State.statusWord (accepted .modinv 1 2 0 3120) = some 0x00040206#32 := by decide
theorem test_mrtest_fails_in_round_one :
    after (fun t => (t.statusWord, t.mrs, t.mrcnt)) 
      ((testing 221 2#32 []).withScript (.engine :: [good 174, good 137].map .answer)) =
      some (0x00050002#32, 2#32, 1#32) := by decide
theorem test_mrtest_rng_failure :
    after (fun t => (t.statusWord, t.mrs, t.mrcnt)) 
      ((testing 13 2#32 []).withScript (.engine :: [good 2, ⟨5, true⟩].map .answer)) =
      some (0x00050306#32, 0#32, 0#32) := by decide
/-- R231: `InvalidModulus` is detected before any arithmetic. -/
theorem test_no_product_with_zero_modulus :
    after State.work ((accepted .modmul 1 5 7 0).withScript [.tick]) = some .fresh ∧
      after State.work ((accepted .montmul 1 5 7 496).withScript [.tick]) = some .fresh ∧
      after State.work ((accepted .modmul 1 5 7 13).withScript [.tick]) = some (.product 35) := by decide
/-- R262: a late answer, with no request pending, is ignored. -/
theorem test_late_answer_ignored :
    after id (State.reset.withScript [.answer (good 7)]) = some State.reset := by decide
theorem test_mrwit_no_stop_at_one :
    after (fun t => (t.statusWord, t.mrs, t.mrcnt)) (accepted .mrwit 1 2 0 561) =
      some (0x00060002#32, 4#32, 0#32) := by decide
theorem test_mrwit_operand_range :
    after State.statusWord (accepted .mrwit 1 12 0 13) = some 0x00060506#32 := by decide
theorem test_montmul : after State.r (accepted .montmul 1 4 4 497) = some 270 := by decide
theorem test_montmul_absent :
    after State.statusWord { accepted .montmul 1 5 7 13 with params := ⟨1, false⟩ } = some 0x00070406#32 := by decide

/-! ### Register access (95_test_vectors.md sections 10 and 11) -/

theorem test_stale_high_word :
    ((loaded 2 0x0123456789ABCDEF 0 0).memWrite 0x1000#15 0x00000005#32).1.a = 0x0123456700000005 := by decide
theorem test_word_order : (loaded 4 0 0 (2 ^ 96 + 5)).memRead 0x300C#15 = (0x00000001#32, false) := by decide
theorem test_unmapped_second_word : State.reset.memRead 0x1004#15 = (0#32, true) := by decide
theorem test_write_while_busy :
    after (fun t => (t.a, t.statusWord))
      ((accepted .modexp 1 4 13 497).withScript [.write 0x1000#15 99#32]) = some (4, 0x00020011#32) := by decide
theorem test_reset_while_busy :
    after id ((accepted .modexp 1 2790 2753 3233).withScript [.reset]) = some State.reset := by decide

/-! ### Witnesses: concrete states that meet the hypotheses of the statements -/

/-- A `Sized` block from its bounds. -/
theorem sized_of (s : State) (h : s.params.wf = true ∧ s.a < 2 ^ s.params.width ∧ s.b < 2 ^ s.params.width ∧
    s.m < 2 ^ s.params.width ∧ s.r < 2 ^ s.params.width ∧ s.x < 2 ^ s.params.width ∧ s.y < 2 ^ s.params.width) :
    s.Sized := ⟨h.1, h.2.1, h.2.2.1, h.2.2.2.1, h.2.2.2.2.1, h.2.2.2.2.2.1, h.2.2.2.2.2.2⟩

/-- A command just accepted with operands that fit meets the invariant. -/
theorem accepted_inv (i : Instr) (a b m : Nat) (ha : a < 2 ^ 32) (hb : b < 2 ^ 32) (hm : m < 2 ^ 32) :
    (accepted i 1 a b m).Inv where
  sized := ⟨rfl, ha, hb, hm, Nat.two_pow_pos 32, Nat.two_pow_pos 32, Nat.two_pow_pos 32⟩
  xSign := fun _ => rfl
  ySign := fun _ => rfl
  mrs := show 0 < 32 by decide
  errPrime := fun h => absurd rfl h
  busy := fun c hc => by cases hc; exact ⟨rfl, rfl, rfl, rfl⟩
  idle := fun h => by cases h
  work := trivial

/-- MODEXP of program 1 (95_test_vectors.md section 3), just accepted. -/
theorem modexp_inv : (accepted .modexp 1 4 13 497).Inv :=
  accepted_inv .modexp 4 13 497 (by decide) (by decide) (by decide)

theorem witness_DecodeAndEncodeAgree : decode 0x00000003#32 = .ok .egcd ∧ decode 0x00000007#32 = .ok .montmul := by decide

theorem witness_ConfigControlSignLayout : Params.wf ⟨1, false⟩ = true ∧ Params.wf ⟨1024, true⟩ = true := by decide

theorem witness_OtherWordsEndInIllegalCommand :
    (∀ i : Instr, i.wf ⟨1, true⟩ = true → (0x00000008#32 : Word) ≠ encode i) ∧
      (∀ i : Instr, i.wf ⟨1, true⟩ = true → (0x80000000#32 : Word) ≠ encode i) ∧
      (∀ i : Instr, i.wf ⟨1, false⟩ = true → (0x00000007#32 : Word) ≠ encode i) ∧
      ((loaded 1 5 7 13).accept 0x00000008#32).phase = .run 0x00000008#32 := by
  refine ⟨fun i _ => ?_, fun i _ => ?_, fun i => ?_, rfl⟩ <;> cases i <;> decide

theorem witness_StepRunsTheDecodedCommand :
    (accepted .modmul 1 4 13 497).phase = .run 1#32 ∧ decode 1#32 = .ok .modmul ∧
      (accepted .modmul 1 4 13 497).script = [] ∧
      ((accepted .modmul 1 4 13 497).withScript [.engine, .tick]).script = [.engine, .tick] ∧
      State.reset.phase = .idle ∧ State.reset.script = [] ∧
      (State.reset.withScript [.engine]).script = [.engine] := by decide

theorem witness_PhaseTransitions :
    (∃ t, step (State.reset.withScript [.write 0x0008#15 1#32]) = .next t ∧ t.phase = .run 1#32) ∧
      (∃ t, step (accepted .nop 1 0 0 0) = .next t ∧ t.phase = .idle ∧ t.status.done = true) ∧
      ∃ t, step ((accepted .nop 1 0 0 0).withScript [.reset]) = .next t ∧ t.phase = .idle :=
  ⟨⟨_, rfl, rfl⟩, ⟨_, rfl, rfl, rfl⟩, ⟨_, rfl, rfl⟩⟩

theorem witness_CommandsComplete :
    (accepted .egcd 1 240 46 0).phase = .run 3#32 ∧ (3#32 : Word) ≠ encode .mrtest ∧
      (testing 13 2#32 [good 2, good 5]).running .mrtest ∧
      (testing 13 2#32 [good 2, good 5]).rounds.toNat ≤ [good 2, good 5].length :=
  ⟨rfl, by decide, rfl, by decide⟩

/-- MRTEST on 13, waiting for its first draw. -/
def waiting : State := (testing 13 1#32 []).withWork (.mrAwait 3 2 0 (witnessReq 13))

/-- With the host inside a `WAIT`, with no input at all, and, an idle block, final with an engine turn left (R278). -/
theorem witness_UnansweredDrawIsStuck :
    (waiting.withScript [.read 0x000C#15, .tick, .engine, .read 0x000C#15]).stuck ∧ waiting.stuck ∧
      waiting.script = [] ∧ (State.reset.withScript [.engine]).final :=
  ⟨⟨by decide, rfl, by decide, 3, 2, 0, rfl, by decide⟩, ⟨by decide, rfl, by decide, 3, 2, 0, rfl, by decide⟩, rfl,
    ⟨by decide, rfl, rfl⟩⟩

theorem witness_StepKeepsTheInvariant :
    (accepted .modexp 1 4 13 497).Inv ∧ ∃ t, step (accepted .modexp 1 4 13 497) = .next t ∧ t.r = 445 :=
  ⟨modexp_inv, _, rfl, by decide⟩

theorem witness_ResetMeetsTheInvariant : Params.wf ⟨1, false⟩ = true ∧ Params.wf ⟨1024, true⟩ = true := by decide

theorem witness_ResetState : ((accepted .modexp 1 4 13 497).withScript [.reset, .engine]).script =
    .reset :: [.engine] := rfl

theorem witness_ReadHasNoSideEffect : (State.reset.withScript [.read 0x7FFF#15]).script = .read 0x7FFF#15 :: [] := rfl

theorem witness_RegisterWordRead :
    (Params.wf ⟨1, true⟩ = true ∧ 0 < 1 ∧ (0x1000#15 : Offset).toNat = 0x1000 * (RegIdx.A.index + 1) + 4 * 0) ∧
      Params.wf ⟨1024, true⟩ = true ∧ 1023 < 1024 ∧
        (0x6FFC#15 : Offset).toNat = 0x1000 * (RegIdx.Y.index + 1) + 4 * 1023 := by decide

theorem witness_MisalignedAccess :
    (0x0002#15 : Offset).toNat % 4 ≠ 0 ∧ (0x7FFF#15 : Offset).toNat % 4 ≠ 0 ∧
      (State.reset.withScript [.write 0x7FFF#15 1#32]).script = .write 0x7FFF#15 1#32 :: [] ∧
      (State.reset.withScript [.read 0x0002#15]).script = .read 0x0002#15 :: [] := by decide

theorem witness_UnmappedAccess :
    (0x0024 ≤ (0x0024#15 : Offset).toNat ∧ (0x0FFC#15 : Offset).toNat ≤ 0x0FFF) ∧
      (0x1000 ≤ (0x1004#15 : Offset).toNat ∧ (0x1004#15 : Offset).toNat ≤ 0x6FFF ∧
        (loaded 1 0 0 0).params.nw ≤ (0x1004#15 : Offset).toNat % 0x1000 / 4) ∧
      (0x7000 ≤ (0x7000#15 : Offset).toNat ∧ 0x7000 ≤ (0x7FFC#15 : Offset).toNat) ∧
      (State.reset.withScript [.write 0x7000#15 1#32]).script = .write 0x7000#15 1#32 :: [] ∧
      (State.reset.withScript [.read 0x1004#15]).script = .read 0x1004#15 :: [] := by decide

theorem witness_ReadOnlyWriteIgnored :
    Params.wf ⟨1, true⟩ = true ∧ (0x4000#15 : Offset).toNat = 0x1000 * (RegIdx.R.index + 1) + 4 * 0 ∧
      (0x5000#15 : Offset).toNat = 0x1000 * (RegIdx.X.index + 1) + 4 * 0 ∧
      (0x6000#15 : Offset).toNat = 0x1000 * (RegIdx.Y.index + 1) + 4 * 0 ∧
      (State.reset.withScript [.write 0x4000#15 1#32]).script = .write 0x4000#15 1#32 :: [] := by decide

theorem witness_ControlRegisterWrites :
    ((accepted .nop 1 0 0 0).withScript [.write 0x000C#15 6#32]).script = .write 0x000C#15 6#32 :: [] ∧
      ((accepted .nop 1 0 0 0).withScript [.write 0x0010#15 3#32]).script = .write 0x0010#15 3#32 :: [] ∧
      (State.reset.phase = .idle ∧
        (State.reset.withScript [.write 0x0014#15 7#32]).script = .write 0x0014#15 7#32 :: []) ∧
      (State.reset.withScript [.write 0x0020#15 3#32]).script = .write 0x0020#15 3#32 :: [] := by decide

theorem witness_BusyWriteOnlyFlags :
    Params.wf ⟨1, true⟩ = true ∧ (accepted .modexp 1 4 13 497).phase = .run 2#32 ∧
      ((accepted .modexp 1 4 13 497).withScript [.write 0x1000#15 99#32]).script = .write 0x1000#15 99#32 :: [] ∧
      (0x1000#15 : Offset).toNat = 0x1000 * (RegIdx.A.index + 1) + 4 * 0 ∧
      (0x2000#15 : Offset).toNat = 0x1000 * (RegIdx.B.index + 1) + 4 * 0 ∧
      (0x3000#15 : Offset).toNat = 0x1000 * (RegIdx.M.index + 1) + 4 * 0 := by decide

theorem witness_OperandWriteThenRead :
    Params.wf ⟨1024, true⟩ = true ∧ (loaded 1024 1 2 3).phase = .idle ∧ 1023 < (loaded 1024 1 2 3).params.nw ∧
      (0x3FFC#15 : Offset).toNat = 0x1000 * (RegIdx.M.index + 1) + 4 * 1023 := by decide

theorem witness_RegisterIsTheSumOfItsWords : 0x0123456789ABCDEF < 2 ^ (32 * 2) := by decide

theorem witness_LoadOperandLoadsTheValue :
    (loaded 2 0xFFFFFFFFFFFFFFFF 0 0).Sized ∧ (loaded 2 0xFFFFFFFFFFFFFFFF 0 0).phase = .idle ∧
      5 < 2 ^ (loaded 2 0xFFFFFFFFFFFFFFFF 0 0).params.width :=
  ⟨sized_of _ (by decide), rfl, by decide⟩

theorem witness_AcceptanceState :
    State.reset.phase = .idle ∧ (accepted .modexp 1 4 13 497).phase = .run 2#32 ∧
      (State.reset.withScript [.write 0x0008#15 0x80000000#32]).script = .write 0x0008#15 0x80000000#32 :: [] := by
  decide

theorem witness_InterruptLevel :
    (accepted .modinv 1 2 0 3120).running .modinv ∧
      ∃ t, exec .modinv (accepted .modinv 1 2 0 3120) = .next t ∧ t.phase = .idle :=
  ⟨rfl, _, rfl, rfl⟩

/-- A busy block whose host has written to `A` (program 5). -/
def flagged : State := (accepted .modexp 1 4 13 497).flagWrBusy

theorem witness_WriteBusyIsSticky :
    (flagged.status.wrBusy = true ∧ ∃ t, step (flagged.withScript [.tick]) = .next t ∧ t.status.wrBusy = true) ∧
      (∃ t, step (flagged.withScript [.write 0x000C#15 0x10#32]) = .next t ∧ t.status.wrBusy = false) ∧
      (accepted .modexp 1 4 13 497).status.wrBusy = false ∧
      (∃ t, step ((accepted .modexp 1 4 13 497).withScript [.write 0x3000#15 0#32]) = .next t ∧
        t.status.wrBusy = true) ∧
      target ⟨1, true⟩ 0x3000#15 = .word .M 0 :=
  ⟨⟨rfl, _, rfl, rfl⟩, ⟨_, rfl, by decide⟩, rfl, ⟨_, rfl, by decide⟩, by decide⟩

theorem witness_OpcodeByteKept :
    (∃ t, step (State.reset.withScript [.write 0x0008#15 0x000000FF#32]) = .next t ∧ t.status.op = 0xFF#8) ∧
      (∃ t, step (flagged.withScript [.reset]) = .next t ∧ t.status.op = 0#8) ∧
      ∃ t, step flagged = .next t ∧ t.status.op = 0x02#8 :=
  ⟨⟨_, rfl, by decide⟩, ⟨_, rfl, rfl⟩, ⟨_, rfl, by decide⟩⟩

theorem witness_BusyKeepsOperandsAndResults :
    (accepted .modexp 1 4 13 497).Inv ∧
      ((accepted .modexp 1 4 13 497).withScript [.write 0x1000#15 99#32]).Inv ∧
      ∃ t, step ((accepted .modexp 1 4 13 497).withScript [.write 0x1000#15 99#32]) = .next t ∧
        t.phase = .run 2#32 :=
  have h := modexp_inv
  ⟨h, ⟨sized_of _ (by decide), h.xSign, h.ySign, h.mrs, h.errPrime, h.busy, h.idle, h.work⟩, _, rfl, by decide⟩

theorem witness_NopCompletes :
    (State.reset.withScript [.write 0x0008#15 0x00000000#32, .engine]).script =
      .write 0x0008#15 0x00000000#32 :: .engine :: [] ∧ State.reset.phase = .idle := by decide

theorem witness_ModmulResult :
    (accepted .modmul 1 445 445 497).work = .fresh ∧ (accepted .modmul 1 445 445 497).m ≠ 0 ∧
      (accepted .modmul 1 5 7 0).work = .fresh ∧ (accepted .modmul 1 5 7 0).m = 0 := by decide

theorem witness_ModexpResult :
    (accepted .modexp 1 0 0 1).work = .fresh ∧ (accepted .modexp 1 0 0 1).m ≠ 0 ∧
      (accepted .modexp 1 4 0 0).work = .fresh ∧ (accepted .modexp 1 4 0 0).m = 0 := by decide

theorem witness_ModexpLoopInvariant : 0 < 497 := by decide

theorem witness_RawRecursion : (12 : Int) ≠ 0 ∧ rawE (Int.tmod 18 12) 12 = (6, 1, 0) ∧ rawE 12 18 = (6, -1, 1) := by
  decide

theorem witness_EgcdIsBezout :
    rawE (-3) 6 = (-3, 1, 0) ∧ ¬ (0 : Int) ≤ -3 ∧ egcd (-3) 6 = (3, -1, 0) ∧ rawE 240 46 = (2, -9, 47) := by decide

theorem witness_EgcdRange : egcd (-240) 46 = (2, 9, 47) := by decide

theorem witness_EgcdSignSymmetry : rawE ((-240 : Int).natAbs : Int) ((46 : Int).natAbs : Int) = (2, -9, 47) := by decide

theorem witness_EgcdResult :
    (accepted .egcd 1 240 46 0).work = .fresh ∧
      (240 : Int) = (if (accepted .egcd 1 240 46 0).a = 0 then 0
        else if (accepted .egcd 1 240 46 0).sign.as = true then -((accepted .egcd 1 240 46 0).a : Int)
        else ((accepted .egcd 1 240 46 0).a : Int)) ∧
      (46 : Int) = (if (accepted .egcd 1 240 46 0).b = 0 then 0
        else if (accepted .egcd 1 240 46 0).sign.bs = true then -((accepted .egcd 1 240 46 0).b : Int)
        else ((accepted .egcd 1 240 46 0).b : Int)) ∧
      normalize (rawE 240 46) = (2, -9, 47) := by decide

theorem witness_ModinvResult :
    (accepted .modinv 1 17 0 3120).work = .fresh ∧ egcd 3120 17 = (1, 2, -367) ∧ egcd 3120 2 = (2, 0, 1) ∧
      (accepted .modinv 1 17 0 3120).m ≠ 0 ∧ egcd 0 5 = (5, 0, 1) ∧ (accepted .modinv 1 5 0 0).m = 0 := by decide

theorem witness_FactoringOfCandidate : 5 % 2 = 1 ∧ 5 ≤ 5 ∧ 5 < 2 ^ 3 := by decide

theorem witness_DeterministicVerdicts :
    ((testing 1 1#32 []).m ≤ 1 ∧ (false = false)) ∧
      ((testing 4 1#32 []).m ≠ 2 ∧ (testing 4 1#32 []).m % 2 = 0) ∧
      (testing 2 1#32 []).m = 2 ∧ (testing 3 1#32 []).m = 3 := by decide

theorem witness_MrtestZeroRounds :
    (testing 9 0#32 []).work = .fresh ∧ (testing 9 0#32 []).rounds = 0#32 ∧ (testing 9 0#32 []).m % 2 = 1 ∧
      3 ≤ (testing 9 0#32 []).m := by decide

/-- 2 and 5 are witnesses for the prime 13, `12 = 2^2 * 3` (95_test_vectors.md section 6). -/
theorem draws_of_13 : ∀ ans ∈ [good 2, good 5], InRange 13 ans ∧ WitnessPasses 13 3 2 ans.val := by
  intro ans h
  simp only [List.mem_cons, List.not_mem_nil, or_false] at h
  rcases h with rfl | rfl
  · exact ⟨by unfold InRange; decide, .inr ⟨1, by decide, by decide⟩⟩
  · exact ⟨by unfold InRange; decide, .inr ⟨1, by decide, by decide⟩⟩

theorem witness_MrtestAllRoundsPass :
    13 % 2 = 1 ∧ 5 ≤ 13 ∧ 3 % 2 = 1 ∧ 2 ^ 2 * 3 = 13 - 1 ∧
      (testing 13 2#32 [good 2, good 5]).atRound 3 2 0 ∧ waiting.atRound 3 2 0 ∧
      (testing 13 2#32 [good 2, good 5]).script = [good 2, good 5].map .answer ++ [] ∧
      0 + [good 2, good 5].length = (testing 13 2#32 [good 2, good 5]).rounds.toNat ∧
      ∀ ans ∈ [good 2, good 5], InRange 13 ans ∧ WitnessPasses 13 3 2 ans.val :=
  ⟨by decide, by decide, by decide, by decide, .inl ⟨rfl, rfl⟩, .inr rfl, rfl, rfl, draws_of_13⟩

theorem witness_MrtestFirstFailingRound :
    221 % 2 = 1 ∧ 5 ≤ 221 ∧ 55 % 2 = 1 ∧ 2 ^ 2 * 55 = 221 - 1 ∧
      (testing 221 2#32 [good 174, good 137]).atRound 55 2 0 ∧
      (testing 221 2#32 [good 174, good 137]).script = [good 174].map .answer ++ .answer (good 137) :: [] ∧
      0 + [good 174].length < (testing 221 2#32 [good 174, good 137]).rounds.toNat ∧
      (∀ ans ∈ [good 174], InRange 221 ans ∧ WitnessPasses 221 55 2 ans.val) ∧
      InRange 221 (good 137) ∧ ¬ WitnessPasses 221 55 2 (good 137).val := by
  refine ⟨by decide, by decide, by decide, by decide, .inl ⟨rfl, rfl⟩, rfl, by decide, ?_, by unfold InRange; decide, ?_⟩
  · intro ans h
    obtain rfl : ans = good 174 := by simpa using h
    exact ⟨by unfold InRange; decide, .inr ⟨1, by decide, by decide⟩⟩
  · unfold WitnessPasses
    decide

theorem witness_MrtestDrawFailure :
    13 % 2 = 1 ∧ 5 ≤ 13 ∧ 3 % 2 = 1 ∧ 2 ^ 2 * 3 = 13 - 1 ∧
      (testing 13 2#32 [good 2, ⟨5, true⟩]).atRound 3 2 0 ∧
      (testing 13 2#32 [good 2, ⟨5, true⟩]).script = [good 2].map .answer ++ .answer ⟨5, true⟩ :: [] ∧
      0 + [good 2].length < (testing 13 2#32 [good 2, ⟨5, true⟩]).rounds.toNat ∧
      (∀ ans ∈ [good 2], InRange 13 ans ∧ WitnessPasses 13 3 2 ans.val) ∧
      (RngAnswer.fail ⟨5, true⟩ = true ∧ (good 1).val < 2 ∧ (good 12).val > 13 - 2) :=
  ⟨by decide, by decide, by decide, by decide, .inl ⟨rfl, rfl⟩, rfl, by decide,
    fun ans h => draws_of_13 ans (by simp only [List.mem_singleton] at h; simp [h]), by decide⟩

/-- Two answers and then none. -/
def awaited : List Event := [.answer (good 2), .answer (good 5), .tick]

/-- A pending request, held while the host polls (second clause), and in a state of a run (third clause). -/
theorem witness_MrtestWaitsForDraw_request :
    waiting.Inv ∧ waiting.running .mrtest ∧ waiting.rngRequest = some ⟨2, 11⟩ ∧
      ∃ t, step (waiting.withScript (.read 0x000C#15 :: [])) = .next t ∧ t.rngRequest = some ⟨2, 11⟩ := by
  have h := accepted_inv .mrtest 0 0 13 (by decide) (by decide) (by decide)
  refine ⟨⟨sized_of _ (by decide), h.xSign, h.ySign, h.mrs, h.errPrime, h.busy, fun hp => ?_, ?_⟩, rfl, rfl, _, rfl, rfl⟩
  · cases hp
  · exact ⟨rfl, by decide, rfl, ⟨by decide, by decide⟩, by decide⟩

theorem witness_MrtestWaitsForDraw :
    13 % 2 = 1 ∧ 5 ≤ 13 ∧ 3 % 2 = 1 ∧ 2 ^ 2 * 3 = 13 - 1 ∧
      (testing 13 3#32 []).m = 13 ∧ ((testing 13 3#32 []).withScript awaited).atRound 3 2 0 ∧
      awaited = [good 2, good 5].map .answer ++ [.tick] ∧
      (∀ (ans : RngAnswer) (more : List Event), [Event.tick] ≠ .answer ans :: more) ∧
      0 + [good 2, good 5].length < ((testing 13 3#32 []).withScript awaited).rounds.toNat ∧
      ∀ ans ∈ [good 2, good 5], InRange 13 ans ∧ WitnessPasses 13 3 2 ans.val :=
  ⟨by decide, by decide, by decide, by decide, rfl, .inl ⟨rfl, rfl⟩, rfl, by simp, by decide, draws_of_13⟩

theorem witness_MrwitResult :
    (accepted .mrwit 1 2 0 13).work = .fresh ∧ (accepted .mrwit 1 2 0 13).m % 2 = 1 ∧
      5 ≤ (accepted .mrwit 1 2 0 13).m ∧ 3 % 2 = 1 ∧ 2 ^ 2 * 3 = (accepted .mrwit 1 2 0 13).m - 1 ∧
      2 ≤ (accepted .mrwit 1 2 0 13).a ∧ (accepted .mrwit 1 11 0 13).a ≤ (accepted .mrwit 1 11 0 13).m - 2 ∧
      (accepted .mrwit 1 1 0 13).a < 2 ∧ (accepted .mrwit 1 12 0 13).a > (accepted .mrwit 1 12 0 13).m - 2 ∧
      (accepted .mrwit 1 77 0 2).m = 2 ∧ (accepted .mrwit 1 0 0 3).m = 3 ∧ (accepted .mrwit 1 5 0 0).m ≤ 1 := by decide

theorem witness_MrtestIsMrwitOnEveryDraw :
    (testing 221 2#32 [good 174, good 137]).work = .fresh ∧
      (testing 221 2#32 [good 174, good 137]).script = [good 174, good 137].map .answer ++ [] ∧
      [good 174, good 137].length = (testing 221 2#32 [good 174, good 137]).rounds.toNat ∧
      (∀ ans ∈ [good 174, good 137], InRange 221 ans) ∧
      (testing 4 2#32 []).m % 2 ≠ 1 :=
  ⟨rfl, rfl, rfl, by unfold InRange; decide, by decide⟩

theorem witness_PrimesAlwaysPass :
    Nat.Prime (testing 13 2#32 [good 2, good 5]).m ∧ (testing 13 2#32 [good 2, good 5]).work = .fresh ∧
      (testing 13 2#32 [good 2, good 5]).script = [good 2, good 5].map .answer ++ [] ∧
      [good 2, good 5].length = (testing 13 2#32 [good 2, good 5]).rounds.toNat ∧
      ∀ ans ∈ [good 2, good 5], InRange 13 ans :=
  ⟨show Nat.Prime 13 by norm_num, rfl, rfl, rfl, fun ans h => (draws_of_13 ans h).1⟩

theorem witness_SamplingIsDrawing :
    smallVerdict waiting.m = none ∧ waiting.work = .mrAwait 3 2 0 (witnessReq waiting.m) ∧
      0 < waiting.rounds.toNat ∧ drawValue (witnessReq waiting.m) (good 7) ≠ none ∧
      drawValue (witnessReq waiting.m) (good 12) = none ∧
      (good 12).val > (witnessReq waiting.m).hi ∧
      ((good 7).fail = false ∧ (witnessReq waiting.m).lo ≤ (good 7).val ∧ (good 7).val ≤ (witnessReq waiting.m).hi) ∧
      ∀ d e i req, State.reset.work ≠ .mrAwait d e i req :=
  ⟨by decide, rfl, by decide, by decide, by decide, by decide, by decide, fun _ _ _ _ h => by cases h⟩

theorem witness_MontmulResult :
    (accepted .montmul 1 5 7 13).work = .fresh ∧ (accepted .montmul 1 5 7 13).params.mont = true ∧
      (accepted .montmul 1 5 7 13).m % 2 = 1 ∧ (accepted .montmul 1 5 7 496).m % 2 = 0 ∧
      ({ accepted .montmul 1 5 7 13 with params := ⟨1, false⟩ } : State).params.mont = false := by decide

theorem witness_MontParameterInvisible :
    Instr.modexp ≠ .montmul ∧ ∃ t, exec .modexp (accepted .modexp 1 4 13 497) = .next t ∧ t.r = 445 :=
  ⟨by decide, _, rfl, by decide⟩

theorem witness_CommandFrame :
    ∃ t, exec .egcd (accepted .egcd 1 240 46 9) = .next t ∧ t.r = 2 ∧ t.m = 9 := ⟨_, rfl, by decide, rfl⟩

theorem witness_CommandFrameByRead :
    mayWrite .egcd (target ⟨1, true⟩ 0x3000#15) = false ∧ mayWrite .modexp (target ⟨1, true⟩ 0x5000#15) = false ∧
      mayWrite .mrtest (target ⟨1, true⟩ 0x0014#15) = false := by decide

theorem witness_ErrorsArePrecise :
    ((accepted .modinv 1 4 13 0).Inv ∧ (accepted .modinv 1 4 13 0).phase = .run 4#32 ∧
      ∃ t, step ((accepted .modinv 1 4 13 0).withScript (.engine :: (accepted .modinv 1 4 13 0).script)) = .next t ∧
        t.phase = .idle ∧ t.status.err = some .invalidModulus) ∧
      ∃ t, step (((loaded 1 0 0 0).accept 8#32).withScript (.engine :: ((loaded 1 0 0 0).accept 8#32).script)) =
        .next t ∧ t.phase = .idle ∧ t.status.err = some .illegalCommand :=
  ⟨⟨accepted_inv .modinv 4 13 0 (by decide) (by decide) (by decide), rfl, _, rfl, rfl, rfl⟩, _, rfl, rfl, rfl⟩

theorem witness_ErrorsOfEachCommand :
    (accepted .mrwit 1 12 0 13).status.err = none ∧
      ∃ t, exec .mrwit (accepted .mrwit 1 12 0 13) = .next t ∧ t.status.err = some .operandRange :=
  ⟨rfl, _, rfl, by decide⟩

theorem witness_OutcomeDependsOnReadRegisters :
    ReadsAgree (accepted .modinv 1 17 4 3120) (accepted .modinv 2 17 9 3120) .modinv ∧
      (accepted .modinv 1 17 4 3120).running .modinv ∧ (accepted .modinv 2 17 9 3120).running .modinv ∧
      (accepted .modinv 1 17 4 3120).work = .fresh ∧ (accepted .modinv 2 17 9 3120).work = .fresh ∧
      (∃ t, exec .modinv (accepted .modinv 1 17 4 3120) = .next t ∧ t.phase = .idle) ∧
      ∃ v, exec .modinv (accepted .modinv 2 17 9 3120) = .next v ∧ v.phase = .idle :=
  ⟨⟨rfl, rfl⟩, rfl, rfl, rfl, rfl, ⟨_, rfl, rfl⟩, ⟨_, rfl, rfl⟩⟩

/-- MODEXP after one iteration of its loop (trace of R117: `acc = 4`, `bp = 16`, `ex = 6`). -/
theorem witness_OutcomeFromAnyEnginePosition :
    ((accepted .modexp 1 4 13 497).withWork (.pow ⟨4, 16, 6⟩)).Inv ∧
      ((accepted .modexp 1 4 13 497).withWork (.pow ⟨4, 16, 6⟩)).running .modexp ∧ Instr.modexp ≠ .mrtest := by
  have h := modexp_inv
  refine ⟨⟨sized_of _ (by decide), h.xSign, h.ySign, h.mrs, h.errPrime, h.busy, fun hp => ?_, ?_⟩, rfl, by decide⟩
  · cases hp
  · exact ⟨rfl, by decide, 1, by decide, by decide, by decide⟩

/-- MRTEST on 221 in its second round, `188 = 137^55` squared to 205: the iteration finds the round failed (R156), and
the outcome stays that of the example of R157. -/
def failing : State := (testing 221 3#32 [good 174]).withWork (.mrSquare 55 2 1 137 205 1)

theorem test_tick_keeps_failed_round :
    failing.engineTick = failing ∧
      after (fun t => (t.statusWord, t.mrcnt)) (failing.withScript [.engine]) = some (0x00050002#32, 1#32) := by decide

/-- `8^3 = 5` modulo 13 is squared to `12 = n - 1`, so the last squaring of the round passes: the next request follows (R154). -/
theorem test_tick_after_passed_round :
    ((testing 13 2#32 []).withWork (.mrSquare 3 2 0 8 5 0)).engineTick.work =
      .mrAwait 3 2 1 ⟨2, 11⟩ := by decide

/-- MRTEST on 13 after one halving of 12. -/
def factoring : State := (testing 13 2#32 [good 5]).withWork (.mrFactor 6 1)

theorem witness_OutcomeFromAnyEnginePosition_factoring :
    factoring.Inv ∧ factoring.running .mrtest ∧ factoring.work = .mrFactor 6 1 := by
  have h := accepted_inv .mrtest 0 0 13 (by decide) (by decide) (by decide)
  refine ⟨⟨sized_of _ (by decide), h.xSign, h.ySign, h.mrs, h.errPrime, h.busy, fun hp => ?_, ?_⟩, rfl, rfl⟩
  · cases hp
  · exact ⟨.inl rfl, by decide, by decide⟩

/-- MRTEST on 13, round 1 of 2, inside `2^3 mod 13` after one iteration. -/
def inRound : State := (testing 13 2#32 [good 5]).withWork (.mrPow 3 2 0 2 ⟨2, 4, 1⟩)

theorem witness_OutcomeFromAnyEnginePosition_mrtest :
    inRound.Inv ∧ inRound.running .mrtest ∧ ∃ w, inRound.work = .mrPow 3 2 0 2 w := by
  have h := accepted_inv .mrtest 0 0 13 (by decide) (by decide) (by decide)
  refine ⟨⟨sized_of _ (by decide), h.xSign, h.ySign, h.mrs, h.errPrime, h.busy, fun hp => ?_, ?_⟩, rfl, _, rfl⟩
  · cases hp
  · exact ⟨⟨.inl ⟨rfl, by decide⟩, by decide, by decide⟩, ⟨by decide, by decide⟩, by decide,
      1, by decide, by decide, by decide⟩

theorem witness_EngineStepIsInvisible :
    ((accepted .modexp 1 4 13 497).withScript [.tick]).script = .tick :: [] := rfl

end Sys2Proof.Tests
end

section
/-! SUPPORT. Facts of the decoder and the number layer that the statements about the state need: which word is in
flight, how long a register stays W bits wide, and what each loop of the engine has computed where it stands. -/

namespace Sys2Proof.Machine

/-! ### The word in flight (30_encoding.md R91) -/

theorem decode_encode_ok (i : Instr) : decode (encode i) = .ok i := by cases i <;> rfl

theorem decodeOp_eq_ok {op : BitVec 8} {i : Instr} (h : decodeOp op = .ok i) : op = i.opcode := by
  apply BitVec.eq_of_toNat_eq
  unfold decodeOp at h
  split at h <;> cases h <;> assumption

/-- One word for each command (R91). -/
theorem eq_encode_of_decode {c : Word} {i : Instr} (h : decode c = .ok i) : c = encode i := by
  unfold decode at h
  split at h
  · cases h
  · rename_i hrsv
    have hop : cmdOp c = i.opcode := decodeOp_eq_ok h
    have hr : (cmdRsv c).toNat = 0 := by
      rw [not_not.mp hrsv]
      rfl
    rw [cmdRsv, BitVec.extractLsb'_toNat] at hr
    rw [encode, ← hop]
    apply BitVec.eq_of_toNat_eq
    simp only [cmdOp, BitVec.toNat_setWidth, BitVec.extractLsb'_toNat]
    omega

theorem encode_injective {i j : Instr} (h : encode i = encode j) : i = j := by
  have := decode_encode_ok i
  rw [h, decode_encode_ok j] at this
  cases this
  rfl

/-- Only one command is in flight. -/
theorem running_unique {s : State} {i j : Instr} (hi : s.running i) (hj : s.running j) : i = j :=
  encode_injective (Phase.run.inj (hi.symm.trans hj))

theorem running_of_decode {s : State} {c : Word} {i : Instr} (hp : s.phase = .run c) (hd : decode c = .ok i) :
    s.running i := by
  rw [State.running, hp, eq_encode_of_decode hd]

/-! ### Widths (10_state.md R25) -/

/-- A value of `p` bits below one of `q` bits has `p + q` bits. -/
theorem add_two_pow_mul_lt {x y p q : Nat} (hx : x < 2 ^ p) (hy : y < 2 ^ q) : x + 2 ^ p * y < 2 ^ (p + q) :=
  calc x + 2 ^ p * y < 2 ^ p * (y + 1) := by rw [Nat.mul_succ]; omega
    _ ≤ 2 ^ p * 2 ^ q := Nat.mul_le_mul_left _ hy
    _ = 2 ^ (p + q) := (pow_add 2 p q).symm

/-- Replacing one of the words of a W-bit register leaves W bits (20_memory.md R69). -/
theorem withWord_lt {nw v i : Nat} (w : Word) (hi : i < nw) (hv : v < 2 ^ (32 * nw)) :
    withWord v i w < 2 ^ (32 * nw) := by
  have hhigh : v / 2 ^ (32 * (i + 1)) < 2 ^ (32 * (nw - (i + 1))) := by
    rw [Nat.div_lt_iff_lt_mul (by positivity), ← pow_add]
    rwa [show 32 * (nw - (i + 1)) + 32 * (i + 1) = 32 * nw by omega]
  have hlow : v % 2 ^ (32 * i) < 2 ^ (32 * i) := Nat.mod_lt _ (by positivity)
  have hlt := add_two_pow_mul_lt hlow (add_two_pow_mul_lt w.isLt hhigh)
  rwa [show 32 * i + (32 + 32 * (nw - (i + 1))) = 32 * nw by omega] at hlt

/-! ### The exponentiation loop (40_modmul_modexp.md R113) -/

theorem powReached_start (base exponent m : Nat) :
    PowWork.Reached base exponent m (PowWork.start base exponent m) :=
  ⟨0, by simp [PowWork.start, Nat.mod_one]⟩

/-- One iteration keeps the loop invariant of R113. -/
theorem powReached_next {base exponent m : Nat} {w : PowWork} (h : w.Reached base exponent m) :
    (w.next m).Reached base exponent m := by
  obtain ⟨k, hbp, hacc, hex⟩ := h
  refine ⟨k + 1, ?_, ?_, ?_⟩
  · simp only [PowWork.next, mulmod]
    rw [hbp, ← Nat.mul_mod, ← pow_add, pow_succ 2 k, Nat.mul_two]
  · simp only [PowWork.next, mulmod]
    rw [hbp, hacc, hex, Nat.mod_pow_succ]
    rcases Nat.mod_two_eq_zero_or_one (exponent / 2 ^ k) with h0 | h1
    · simp [h0]
    · rw [if_pos h1, h1, ← Nat.mul_mod, ← pow_add, Nat.mul_one]
  · simp only [PowWork.next]
    rw [hex, Nat.div_div_eq_div_mul, pow_succ]

/-- Where no exponent bit is left, the accumulator is the result (R113). -/
theorem powReached_acc {base exponent m : Nat} {w : PowWork} (h : w.Reached base exponent m) (h0 : w.ex = 0) :
    w.acc = base ^ exponent % m := by
  obtain ⟨k, -, hacc, hex⟩ := h
  have hlt : exponent < 2 ^ k := by
    have : exponent / 2 ^ k = 0 := hex.symm.trans h0
    exact (Nat.div_eq_zero_iff_lt (by positivity)).mp this
  rw [hacc, Nat.mod_eq_of_lt hlt]

/-- From wherever the loop stands it ends with the power (R112, R113). -/
theorem finish_of_powReached {base exponent m : Nat} {w : PowWork} (h : w.Reached base exponent m) :
    w.finish m = base ^ exponent % m := by
  induction hn : w.ex using Nat.strong_induction_on generalizing w with
  | _ n ih =>
    by_cases h0 : w.ex = 0
    · rw [finish_of_ex_zero m h0, powReached_acc h h0]
    · have hlt : (w.next m).ex < n := by simp only [PowWork.next]; omega
      rw [← finish_next m h0, ih _ hlt (powReached_next h) rfl]

@[simp] theorem modexp_eq_pow_mod (base exponent m : Nat) : modexp base exponent m = base ^ exponent % m :=
  finish_of_powReached (powReached_start base exponent m)

/-! ### The Euclidean loop (41_egcd_modinv.md R134, R137) -/

theorem euclidReached_start (start : EuclidWork) : EuclidWork.Reached start start := ⟨0, rfl⟩

theorem euclidReached_next {start w : EuclidWork} (h : EuclidWork.Reached start w) (hr : w.r ≠ 0) :
    EuclidWork.Reached start w.next := by
  obtain ⟨k, rfl⟩ := h
  exact ⟨k + 1, by rw [Function.iterate_succ_apply', EuclidWork.iterate, if_neg hr]⟩

theorem iterate_finish (w : EuclidWork) : w.iterate.finish = w.finish := by
  unfold EuclidWork.iterate
  split
  · rfl
  · rename_i h; exact euclid_finish_next h

/-- From wherever the loop stands it ends with the same triple. -/
theorem finish_of_euclidReached {start w : EuclidWork} (h : EuclidWork.Reached start w) : w.finish = start.finish := by
  obtain ⟨k, rfl⟩ := h
  induction k with
  | zero => rfl
  | succ k ih => rw [Function.iterate_succ_apply', iterate_finish, ih]

/-- The bounds of R137 on the rows, with what makes them inductive: the two cross products do not grow. -/
structure EuclidWork.Bounded (a b : Int) (w : EuclidWork) : Prop where
  crossS : w.oldR.natAbs * w.s.natAbs + w.r.natAbs * w.oldS.natAbs ≤ a.natAbs
  crossT : w.oldR.natAbs * w.t.natAbs + w.r.natAbs * w.oldT.natAbs ≤ b.natAbs
  oldR : w.oldR.natAbs ≤ max a.natAbs b.natAbs
  r : w.r.natAbs ≤ max a.natAbs b.natAbs
  oldS : w.oldS.natAbs ≤ max a.natAbs 1
  s : w.s.natAbs ≤ max a.natAbs 1
  oldT : w.oldT.natAbs ≤ max b.natAbs 1
  t : w.t.natAbs ≤ max b.natAbs 1
  q : w.q.natAbs ≤ max a.natAbs b.natAbs

theorem bounded_start (a b : Int) : (EuclidWork.start a b).Bounded a b := by
  constructor <;> simp [EuclidWork.start]

/-- The cross product of one coefficient column does not grow: `|r| * |u'| + |r'| * |u| ≤ |old_r| * |u| + |r| * |old_u|`
for `u' = old_u - q * u` and `r' = old_r - q * r`. -/
theorem cross_next_le (oldR r oldU u : Int) :
    r.natAbs * (oldU - oldR.tdiv r * u).natAbs + (oldR.tmod r).natAbs * u.natAbs ≤
      oldR.natAbs * u.natAbs + r.natAbs * oldU.natAbs := by
  have hdiv : oldR.natAbs = r.natAbs * (oldR.tdiv r).natAbs + (oldR.tmod r).natAbs := by
    rw [Int.natAbs_tdiv, Int.natAbs_tmod]
    exact (Nat.div_add_mod _ _).symm
  have htri : (oldU - oldR.tdiv r * u).natAbs ≤ oldU.natAbs + (oldR.tdiv r).natAbs * u.natAbs := by
    rw [← Int.natAbs_mul]; exact Int.natAbs_sub_le _ _
  rw [hdiv]
  nlinarith [Nat.mul_le_mul_left r.natAbs htri]

/-- A factor of a product is at most the product where the other factor is not 0. -/
theorem le_of_mul_add_le {r u x bound : Nat} (hr : r ≠ 0) (h : r * u + x ≤ bound) : u ≤ bound :=
  calc u ≤ r * u := Nat.le_mul_of_pos_left _ (Nat.pos_of_ne_zero hr)
    _ ≤ bound := by omega

/-- One iteration keeps the bounds (R137). -/
theorem bounded_next {a b : Int} {w : EuclidWork} (h : w.Bounded a b) (hr : w.r ≠ 0) : w.next.Bounded a b := by
  have hr0 : w.r.natAbs ≠ 0 := Int.natAbs_ne_zero.mpr hr
  have hs := (cross_next_le w.oldR w.r w.oldS w.s).trans h.crossS
  have ht := (cross_next_le w.oldR w.r w.oldT w.t).trans h.crossT
  exact {
    crossS := by rw [next_r]; exact hs
    crossT := by rw [next_r]; exact ht
    oldR := h.r
    r := (next_r_lt hr).le.trans h.r
    oldS := h.s
    s := le_max_of_le_left (le_of_mul_add_le hr0 hs)
    oldT := h.t
    t := le_max_of_le_left (le_of_mul_add_le hr0 ht)
    q := by
      have : (w.oldR.tdiv w.r).natAbs ≤ w.oldR.natAbs := by
        rw [Int.natAbs_tdiv]; exact Nat.div_le_self _ _
      exact this.trans h.oldR }

theorem bounded_iterate {a b : Int} {w : EuclidWork} (h : w.Bounded a b) : w.iterate.Bounded a b := by
  unfold EuclidWork.iterate
  split
  · exact h
  · rename_i hr; exact bounded_next h hr

/-- Every working value of the loop is within R137's bounds. -/
theorem bounded_of_euclidReached {a b : Int} {w : EuclidWork} (h : EuclidWork.Reached (EuclidWork.start a b) w) :
    w.Bounded a b := by
  obtain ⟨k, rfl⟩ := h
  induction k with
  | zero => exact bounded_start a b
  | succ k ih => rw [Function.iterate_succ_apply']; exact bounded_iterate ih

theorem bounded_euclidLoop {a b : Int} (n : Nat) {w : EuclidWork} (h : w.Bounded a b) : (euclidLoop n w).Bounded a b := by
  induction n generalizing w with
  | zero => exact h
  | succ n ih =>
    rw [euclidLoop]
    split
    · exact h
    · rename_i hr; exact ih (bounded_next h hr)

/-- `N` changes no magnitude (R132). -/
theorem normalize_natAbs (g x y : Int) :
    (normalize (g, x, y)).1.natAbs = g.natAbs ∧ (normalize (g, x, y)).2.1.natAbs = x.natAbs ∧
      (normalize (g, x, y)).2.2.natAbs = y.natAbs := by
  simp only [normalize]
  split <;> simp

/-- The bounds of R137 on the results. -/
theorem finish_bounds {a b : Int} {w : EuclidWork} (h : w.Bounded a b) :
    w.finish.1.natAbs ≤ max a.natAbs b.natAbs ∧ w.finish.2.1.natAbs ≤ max b.natAbs 1 ∧
      w.finish.2.2.natAbs ≤ max a.natAbs 1 := by
  have hl := bounded_euclidLoop w.r.natAbs h
  obtain ⟨hg, hx, hy⟩ := normalize_natAbs (euclidLoop w.r.natAbs w).oldR (euclidLoop w.r.natAbs w).oldT
    (euclidLoop w.r.natAbs w).oldS
  exact ⟨hg.trans_le hl.oldR, hx.trans_le hl.oldT, hy.trans_le hl.oldS⟩

/-- A signed operand has the magnitude of its register (R26). -/
@[simp] theorem signedValue_natAbs (neg : Bool) (mag : Nat) : (signedValue neg mag).natAbs = mag := by
  unfold signedValue
  split
  · omega
  · cases neg <;> simp

theorem emodNat_lt (y : Int) {m : Nat} (hm : m ≠ 0) : emodNat y m < m := by
  have h1 := Int.emod_lt_of_pos y (show (0 : Int) < m by omega)
  have h0 := Int.emod_nonneg y (show (m : Int) ≠ 0 by omega)
  rw [emodNat, show y.emod (m : Int) = y % (m : Int) from rfl]
  omega

/-! ### Factoring (42_miller_rabin.md R153) -/

/-- The rounds decide for odd `n >= 5` (R151, R152). -/
theorem smallVerdict_eq_none {n : Nat} : smallVerdict n = none ↔ n % 2 = 1 ∧ 5 ≤ n := by
  unfold smallVerdict
  split_ifs <;> simp <;> omega

theorem Factored.ne_zero {n d e : Nat} (h : Factored n d e) : d ≠ 0 := by
  obtain ⟨hv, hprod⟩ := h
  have hn := (smallVerdict_eq_none.mp hv).2
  rintro rfl
  omega

/-- `s <= W - 1` where `n` has `W` bits (R153). -/
theorem Factored.exp_lt {n d e w : Nat} (h : Factored n d e) (hn : n < 2 ^ w) : e < w := by
  have hle : 2 ^ e ≤ 2 ^ e * d := Nat.le_mul_of_pos_right _ (Nat.pos_of_ne_zero h.ne_zero)
  have hprod := h.2
  exact (Nat.pow_lt_pow_iff_right (a := 2) (by omega)).mp (by omega)

theorem Factored.half {n d e : Nat} (h : Factored n d e) (hd : d % 2 = 0) : Factored n (d / 2) (e + 1) := by
  refine ⟨h.1, ?_⟩
  rw [pow_succ, Nat.mul_assoc, Nat.mul_div_cancel' (Nat.dvd_of_mod_eq_zero hd), h.2]

theorem factored_start {n : Nat} (h : smallVerdict n = none) : Factored n (n - 1) 0 := ⟨h, by simp⟩

/-- `n - 1` is even, so an odd `d` leaves at least one halving (R153). -/
theorem Factored.exp_pos {n d e : Nat} (h : Factored n d e) (hd : d % 2 = 1) : 0 < e := by
  rcases Nat.eq_zero_or_pos e with rfl | he
  · have hodd := (smallVerdict_eq_none.mp h.1).1
    have hprod := h.2
    omega
  · exact he

/-- Halving further loses nothing and ends at an odd factor (R153). -/
theorem Factored.finish {n d e : Nat} (h : Factored n d e) :
    Factored n (finishFactor d e).1 (finishFactor d e).2 ∧ (finishFactor d e).1 % 2 = 1 := by
  induction d using Nat.strong_induction_on generalizing e with
  | _ d ih =>
    rcases Nat.mod_two_eq_zero_or_one d with h0 | h1
    · have hd := h.ne_zero
      rw [← finishFactor_even e hd h0]
      exact ih (d / 2) (by omega) (h.half h0)
    · rw [finishFactor_odd e h1]
      exact ⟨h, h1⟩

/-- The factoring does not depend on how many halvings are done already. -/
theorem finishFactor_two_pow_mul {d : Nat} (hd : d ≠ 0) (e k : Nat) :
    finishFactor (2 ^ k * d) e = finishFactor d (e + k) := by
  induction k generalizing e with
  | zero => simp
  | succ k ih =>
    have heq : 2 ^ (k + 1) * d = 2 * (2 ^ k * d) := by rw [pow_succ]; ring
    have hne : 2 * (2 ^ k * d) ≠ 0 := by positivity
    rw [heq, ← finishFactor_even e hne (by omega), Nat.mul_div_cancel_left _ (by omega), ih]
    congr 1
    omega

/-- From wherever the factoring stands it ends with the one `(d, s)` of R153. -/
theorem Factored.finish_eq {n d e : Nat} (h : Factored n d e) : finishFactor d e = factor n := by
  rw [factor, ← h.2, finishFactor_two_pow_mul h.ne_zero, Nat.zero_add]

theorem Factored.eq_factor {n d e : Nat} (h : Factored n d e) (hd : d % 2 = 1) : factor n = (d, e) := by
  rw [← h.finish_eq, finishFactor_odd e hd]

theorem factored_factor {n : Nat} (h : smallVerdict n = none) :
    Factored n (factor n).1 (factor n).2 ∧ (factor n).1 % 2 = 1 := (factored_start h).finish

end Sys2Proof.Machine
end

section
/-! SUPPORT. What a bus transaction, the engine and a step can do to the state, beyond the inversion lemmas of the
model's own laws: which offset a control register has, what each command commits, how MRTEST goes on. -/

namespace Sys2Proof.Machine

/-! ### The phase (10_state.md R28, R34) -/

theorem busy_eq_false {s : State} : s.busy = false ↔ s.phase = .idle := by
  unfold State.busy
  cases s.phase <;> simp

theorem busy_eq_true {s : State} : s.busy = true ↔ ∃ c, s.phase = .run c := by
  unfold State.busy
  cases s.phase <;> simp

/-! ### The offsets of the control registers (20_memory.md R61) -/

/-- Where the offset of a control register leads. -/
def CtlReg.target : CtlReg → Target
  | .id => .id
  | .cfg => .cfg
  | .cmd => .cmd
  | .status => .status
  | .ctrl => .ctrl
  | .rounds => .rounds
  | .mrs => .mrs
  | .mrcnt => .mrcnt
  | .sign => .sign

theorem controlTarget_eq_target {off : Nat} {reg : CtlReg} (h : controlTarget off = reg.target) :
    off = reg.offset.toNat := by
  unfold controlTarget at h
  split at h <;> cases reg <;> cases h <;> rfl

/-- Its own offset, and no other, leads to a control register (R61). -/
theorem target_eq_ctl {p : Params} {addr : Offset} {reg : CtlReg} :
    target p addr = reg.target ↔ addr = reg.offset := by
  constructor
  · intro h
    apply BitVec.eq_of_toNat_eq
    apply controlTarget_eq_target
    simp only [target] at h
    split_ifs at h
    · cases reg <;> cases h
    · exact h
    all_goals split at h <;> cases reg <;> cases h
  · rintro rfl
    cases reg <;> rfl

/-- The writes a busy block ignores and flags: those to `CMD`, `ROUNDS`, `SIGN` and the operand words (R38, R72). -/
theorem guarded_target_iff {p : Params} {addr : Offset} : (target p addr).guarded = true ↔
    addr = 0x0008#15 ∨ addr = 0x0014#15 ∨ addr = 0x0020#15 ∨
      ∃ k i, (k = .A ∨ k = .B ∨ k = .M) ∧ target p addr = .word k i := by
  have hcmd : target p addr = .cmd ↔ addr = 0x0008#15 := target_eq_ctl (reg := .cmd)
  have hrounds : target p addr = .rounds ↔ addr = 0x0014#15 := target_eq_ctl (reg := .rounds)
  have hsign : target p addr = .sign ↔ addr = 0x0020#15 := target_eq_ctl (reg := .sign)
  rw [← hcmd, ← hrounds, ← hsign]
  cases target p addr with
  | word k i => cases k <;> simp [Target.guarded, RegIdx.isOperand]
  | _ => simp [Target.guarded]

/-! ### What a command commits (10_state.md R23) -/

/-- The shape of a command's outcome: an error, or the results of its "w" columns. -/
inductive CmdOutcome.Of : Instr → CmdOutcome → Prop where
  | error (i : Instr) (e : CmdError) : CmdOutcome.Of i (.error e)
  | nop : CmdOutcome.Of .nop (.ok .none)
  | value {i : Instr} (hi : i = .modmul ∨ i = .modexp ∨ i = .modinv ∨ i = .montmul) (r : Nat) :
    CmdOutcome.Of i (.ok (.value r))
  | bezout (g : Nat) (x y : Int) : CmdOutcome.Of .egcd (.ok (.bezout g x y))
  | verdict {i : Instr} (hi : i = .mrtest ∨ i = .mrwit) (v : Bool) (e cnt : Nat) :
    CmdOutcome.Of i (.ok (.verdict v e cnt))

theorem modmulOutcome_of (s : State) : CmdOutcome.Of .modmul (modmulOutcome s) := by
  unfold modmulOutcome
  split
  · exact .error _ _
  · exact .value (by decide) _

theorem modexpOutcome_of (s : State) : CmdOutcome.Of .modexp (modexpOutcome s) := by
  unfold modexpOutcome
  split
  · exact .error _ _
  · exact .value (by decide) _

theorem egcdOutcome_of (s : State) : CmdOutcome.Of .egcd (egcdOutcome s) := .bezout _ _ _

theorem modinvOutcome_of (s : State) : CmdOutcome.Of .modinv (modinvOutcome s) := by
  unfold modinvOutcome
  split
  · exact .error _ _
  · dsimp only
    split
    · exact .value (by decide) _
    · exact .error _ _

theorem mrwitOutcome_of (s : State) : CmdOutcome.Of .mrwit (mrwitOutcome s) := by
  unfold mrwitOutcome
  split
  · exact .verdict (by decide) _ _ _
  · split
    · exact .error _ _
    · exact .verdict (by decide) _ _ _

theorem montmulOutcome_of (s : State) : CmdOutcome.Of .montmul (montmulOutcome s) := by
  unfold montmulOutcome
  split
  · exact .error _ _
  · split
    · exact .error _ _
    · exact .value (by decide) _

/-- The state MRTEST leaves when its rounds have come so far (42_miller_rabin.md R156, R159, R48). -/
def State.conclude (s : State) : MrProgress → State
  | .decided v e cnt rest => (s.withScript rest).commit (.ok (.verdict v e cnt))
  | .failed rest => (s.withScript rest).commit (.error .rngFailure)
  | .waiting d e i rest => (s.withScript rest).withWork (.mrAwait d e i (witnessReq s.m))

@[simp] theorem conclude_withScript (s : State) (evs : List Event) (p : MrProgress) :
    (s.withScript evs).conclude p = s.conclude p := by cases p <;> rfl

@[simp] theorem conclude_withWork (s : State) (w : Work) (p : MrProgress) :
    (s.withWork w).conclude p = s.conclude p := by
  cases p with
  | decided v e cnt rest => rfl
  | failed rest => rfl
  | waiting d e i rest => rfl

/-- MRTEST where a deterministic verdict is there (R151, R152). -/
theorem exec_mrtest_verdict {s : State} {v : Bool} (h : smallVerdict s.m = some v) :
    exec .mrtest s = .next (s.commit (.ok (.verdict v 0 0))) := by
  simp only [exec, execMrtest, h]

/-- MRTEST where the rounds decide (R154 to R159). -/
theorem exec_mrtest_rounds {s : State} (h : smallVerdict s.m = none) :
    exec .mrtest s = .next (s.conclude (mrResume s.m s.rounds.toNat s.script s.work)) := by
  simp only [exec, execMrtest, h]
  cases mrResume s.m s.rounds.toNat s.script s.work <;> rfl

/-- Everything a command can do, with the shape of its outcome: commit it, or, for MRTEST, wait for a draw. -/
theorem exec_effect {i : Instr} {s t : State} (h : exec i s = .next t) :
    (∃ o rest, CmdOutcome.Of i o ∧ t = (s.withScript rest).commit o ∧ (i ≠ .mrtest → rest = s.script)) ∨
      (i = .mrtest ∧ ∃ w rest, t = (s.withScript rest).withWork w) := by
  cases i with
  | nop => cases h; exact .inl ⟨_, s.script, .nop, rfl, fun _ => rfl⟩
  | modmul => cases h; exact .inl ⟨_, s.script, modmulOutcome_of s, rfl, fun _ => rfl⟩
  | modexp => cases h; exact .inl ⟨_, s.script, modexpOutcome_of s, rfl, fun _ => rfl⟩
  | egcd => cases h; exact .inl ⟨_, s.script, egcdOutcome_of s, rfl, fun _ => rfl⟩
  | modinv => cases h; exact .inl ⟨_, s.script, modinvOutcome_of s, rfl, fun _ => rfl⟩
  | mrwit => cases h; exact .inl ⟨_, s.script, mrwitOutcome_of s, rfl, fun _ => rfl⟩
  | montmul => cases h; exact .inl ⟨_, s.script, montmulOutcome_of s, rfl, fun _ => rfl⟩
  | mrtest =>
    cases hv : smallVerdict s.m with
    | some v =>
      rw [exec_mrtest_verdict hv] at h
      cases h
      exact .inl ⟨_, s.script, .verdict (.inl rfl) v 0 0, rfl, fun _ => rfl⟩
    | none =>
      rw [exec_mrtest_rounds hv] at h
      cases h
      cases mrResume s.m s.rounds.toNat s.script s.work with
      | decided v e cnt rest => exact .inl ⟨_, rest, .verdict (.inl rfl) v e cnt, rfl, fun hne => absurd rfl hne⟩
      | failed rest => exact .inl ⟨_, rest, .error _ .rngFailure, rfl, fun hne => absurd rfl hne⟩
      | waiting d e i rest => exact .inr ⟨rfl, _, rest, rfl⟩

/-! ### Completion -/

@[simp] theorem commit_phase (s : State) (o : CmdOutcome) : (s.commit o).phase = .idle := by cases o <;> rfl
@[simp] theorem commit_done (s : State) (o : CmdOutcome) : (s.commit o).status.done = true := by cases o <;> rfl

@[simp] theorem commit_ctrl (s : State) (o : CmdOutcome) : (s.commit o).ctrl = s.ctrl := by
  rcases o with w | e
  · cases w <;> rfl
  · rfl

@[simp] theorem commit_op (s : State) (o : CmdOutcome) : (s.commit o).status.op = s.status.op := by
  rcases o with w | e
  · cases w <;> rfl
  · rfl

@[simp] theorem commit_wrBusy (s : State) (o : CmdOutcome) : (s.commit o).status.wrBusy = s.status.wrBusy := by
  rcases o with w | e
  · cases w <;> rfl
  · rfl

/-- No outcome depends on what a completion throws away. -/
@[simp] theorem commit_withWork (s : State) (w : Work) (o : CmdOutcome) : (s.withWork w).commit o = s.commit o := by
  rcases o with r | e
  · cases r <;> rfl
  · rfl

/-! ### What moves the engine side can make -/

/-- What every step keeps that is no write and no reset: `OP`, `WRBUSY`, and the phase but for a completion. -/
structure EngineSide (s t : State) : Prop where
  op : t.status.op = s.status.op
  wrBusy : t.status.wrBusy = s.status.wrBusy
  phase : t.phase = s.phase ∨ (t.phase = .idle ∧ t.status.done = true)

theorem engineSide_withWork (s : State) (w : Work) : EngineSide s (s.withWork w) := ⟨rfl, rfl, .inl rfl⟩

/-- The input that is still to come is no part of it. -/
theorem EngineSide.of_withScript {s t : State} {rest : List Event} (h : EngineSide (s.withScript rest) t) :
    EngineSide s t := ⟨h.op, h.wrBusy, h.phase⟩

theorem engineSide_commit (s : State) (o : CmdOutcome) : EngineSide s (s.commit o) :=
  ⟨commit_op s o, commit_wrBusy s o, .inr ⟨commit_phase s o, commit_done s o⟩⟩

theorem engineSide_exec {i : Instr} {s t : State} (h : exec i s = .next t) : EngineSide s t := by
  rcases exec_effect h with ⟨o, rest, -, rfl, -⟩ | ⟨-, w, rest, rfl⟩
  · exact (engineSide_commit (s.withScript rest) o).of_withScript
  · exact (engineSide_withWork (s.withScript rest) w).of_withScript

theorem engineSide_engineTurn {s t : State} (h : engineTurn s = .next t) : EngineSide s t := by
  rcases engineTurn_cases h with ⟨-, rfl⟩ | ⟨c, err, -, -, rfl⟩ | ⟨c, i, -, -, hx⟩
  · exact engineSide_withWork t t.work
  · exact engineSide_commit s (.error .illegalCommand)
  · exact engineSide_exec hx

theorem engineSide_engineTick (s : State) : EngineSide s s.engineTick := by
  obtain ⟨w, hw⟩ := engineTick_eq s
  rw [hw]
  exact engineSide_withWork s w

theorem engineSide_sampleAnswer (s : State) (ans : RngAnswer) : EngineSide s (s.sampleAnswer ans) := by
  rcases sampleAnswer_cases s ans with h | ⟨d, e, i, req, -, ⟨-, h⟩ | ⟨a, -, h⟩⟩ <;> rw [h]
  · exact engineSide_withWork s s.work
  · exact engineSide_commit s (.error .rngFailure)
  · exact engineSide_withWork s _

/-- The steps in three kinds: a move of the engine side (or a read), a write, a reset. -/
theorem step_kinds {s t : State} (h : step s = .next t) :
    (EngineSide s t ∧ (∀ addr v rest, s.script ≠ .write addr v :: rest) ∧ ∀ rest, s.script ≠ .reset :: rest) ∨
    (∃ addr v rest, s.script = .write addr v :: rest ∧ t = (s.withScript rest).busWrite addr v) ∨
    ∃ rest, s.script = .reset :: rest ∧ t = (s.withScript rest).reinit := by
  rcases step_cases h with ⟨hs, ht⟩ | ⟨rest, hs, ht⟩ | ⟨rest, hs, rfl⟩ | ⟨ans, rest, hs, rfl⟩ | ⟨addr, rest, hs, rfl⟩ |
    ⟨addr, v, rest, hs, ht⟩ | ⟨rest, hs, ht⟩
  · exact .inl ⟨engineSide_engineTurn ht, by simp [hs], by simp [hs]⟩
  · exact .inl ⟨(engineSide_engineTurn ht).of_withScript, by simp [hs], by simp [hs]⟩
  · exact .inl ⟨(engineSide_engineTick (s.withScript rest)).of_withScript, by simp [hs], by simp [hs]⟩
  · exact .inl ⟨(engineSide_sampleAnswer (s.withScript rest) ans).of_withScript, by simp [hs], by simp [hs]⟩
  · exact .inl ⟨⟨rfl, rfl, .inl rfl⟩, by simp [hs], by simp [hs]⟩
  · exact .inr (.inl ⟨addr, v, rest, hs, ht⟩)
  · exact .inr (.inr ⟨rest, hs, ht⟩)

end Sys2Proof.Machine
end

section
/-! SUPPORT. The invariant of the block: one lemma per kind of move says that it is kept. -/

namespace Sys2Proof.Machine

/-! ### Sizes (10_state.md R25) -/

theorem State.Sized.regValue_lt {s : State} (h : s.Sized) (k : RegIdx) : s.regValue k < 2 ^ s.params.width := by
  cases k
  · exact h.a
  · exact h.b
  · exact h.m
  · exact h.r
  · exact h.x
  · exact h.y

theorem State.Sized.congr {s t : State} (h : s.Sized) (hp : t.params = s.params)
    (hr : ∀ k, t.regValue k = s.regValue k) : t.Sized := by
  have hlt : ∀ k, t.regValue k < 2 ^ t.params.width := fun k => by rw [hp, hr]; exact h.regValue_lt k
  exact ⟨by rw [hp]; exact h.params, hlt .A, hlt .B, hlt .M, hlt .R, hlt .X, hlt .Y⟩

theorem State.Sized.setOperand {s : State} (h : s.Sized) (k : RegIdx) {v : Nat} (hv : v < 2 ^ s.params.width) :
    (s.setOperand k v).Sized := by
  obtain ⟨hp, ha, hb, hm, hr, hx, hy⟩ := h
  cases k
  · exact ⟨hp, hv, hb, hm, hr, hx, hy⟩
  · exact ⟨hp, ha, hv, hm, hr, hx, hy⟩
  · exact ⟨hp, ha, hb, hv, hr, hx, hy⟩
  · exact ⟨hp, ha, hb, hm, hr, hx, hy⟩
  · exact ⟨hp, ha, hb, hm, hr, hx, hy⟩
  · exact ⟨hp, ha, hb, hm, hr, hx, hy⟩

/-- `W >= 32` (00_scope.md R9). -/
theorem State.Sized.width_ge {s : State} (h : s.Sized) : 32 ≤ s.params.width := by
  have := h.params
  simp only [Params.wf, decide_eq_true_eq] at this
  simp only [Params.width]
  omega

theorem State.Sized.one_lt {s : State} (h : s.Sized) : 1 < 2 ^ s.params.width :=
  Nat.one_lt_two_pow (by have := h.width_ge; omega)

/-! ### The working values, one lemma per form (10_state.md R29) -/

section
variable {s : State} (h : s.WorkOk)
include h

theorem workOk_product {p : Nat} (hw : s.work = .product p) :
    ((s.running .modmul ∧ s.m ≠ 0) ∨ (s.running .montmul ∧ s.params.mont = true ∧ s.m % 2 = 1)) ∧ p = s.a * s.b := by
  simpa only [State.WorkOk, hw] using h

theorem workOk_pow {w : PowWork} (hw : s.work = .pow w) :
    s.running .modexp ∧ 0 < s.m ∧ w.Reached s.a s.b s.m := by
  simpa only [State.WorkOk, hw] using h

theorem workOk_euclid {w : EuclidWork} (hw : s.work = .euclid w) :
    (s.running .egcd ∧ EuclidWork.Reached (egcdStart s) w) ∨
      (s.running .modinv ∧ 0 < s.m ∧ EuclidWork.Reached (modinvStart s) w) := by
  simpa only [State.WorkOk, hw] using h

theorem workOk_mrFactor {d e : Nat} (hw : s.work = .mrFactor d e) :
    (s.running .mrtest ∨ s.running .mrwit) ∧ Factored s.m d e := by
  simpa only [State.WorkOk, hw] using h

theorem workOk_mrAwait {d e i : Nat} {req : RngReq} (hw : s.work = .mrAwait d e i req) :
    s.running .mrtest ∧ i < s.rounds.toNat ∧ req = witnessReq s.m ∧ Factored s.m d e ∧ d % 2 = 1 := by
  simpa only [State.WorkOk, hw] using h

theorem workOk_mrPow {d e i a : Nat} {w : PowWork} (hw : s.work = .mrPow d e i a w) :
    s.roundOf i a ∧ Factored s.m d e ∧ d % 2 = 1 ∧ w.Reached a d s.m := by
  simpa only [State.WorkOk, hw] using h

theorem workOk_mrSquare {d e i a x j : Nat} (hw : s.work = .mrSquare d e i a x j) :
    s.roundOf i a ∧ Factored s.m d e ∧ d % 2 = 1 ∧ j ≤ e - 1 ∧ x = a ^ (2 ^ j * d) % s.m ∧
      a ^ d % s.m ≠ 1 ∧ ∀ k, k ≤ j → a ^ (2 ^ k * d) % s.m ≠ s.m - 1 := by
  simpa only [State.WorkOk, hw] using h

end

theorem workOk_of_fresh {s : State} (hw : s.work = .fresh) : s.WorkOk := by
  simp only [State.WorkOk, hw]

/-- What `WorkOk` looks at: the parameters, the operands, their signs, `ROUNDS`, the phase and the working values. -/
theorem State.WorkOk.congr {s t : State} (h : s.WorkOk) (hp : t.params = s.params)
    (hr : ∀ k, t.regValue k = s.regValue k) (hg : t.sign = s.sign) (ho : t.rounds = s.rounds)
    (hph : t.phase = s.phase) (hw : t.work = s.work) : t.WorkOk := by
  have ha : t.a = s.a := hr .A
  have hb : t.b = s.b := hr .B
  have hm : t.m = s.m := hr .M
  have hrun : t.running = s.running := by funext i; simp only [State.running, hph]
  have hround : t.roundOf = s.roundOf := by funext i a; simp only [State.roundOf, hrun, ho, ha, hm]
  have hegcd : egcdStart t = egcdStart s := by simp only [egcdStart, State.signedA, State.signedB, hg, ha, hb]
  have hmodinv : modinvStart t = modinvStart s := by simp only [modinvStart, ha, hm]
  unfold State.WorkOk at h ⊢
  rwa [hw, hp, ha, hb, hm, ho, hrun, hround, hegcd, hmodinv]

/-! ### Moves that leave the registers and the working values alone -/

/-- A move that changes no register of a command, no phase and no working value, and clears flags at most (`WRBUSY`
aside), keeps the invariant. -/
theorem State.Inv.keep {s t : State} (h : s.Inv) (hp : t.params = s.params) (hr : ∀ k, t.regValue k = s.regValue k)
    (hg : t.sign = s.sign) (ho : t.rounds = s.rounds) (hm : t.mrs = s.mrs) (hph : t.phase = s.phase)
    (hw : t.work = s.work) (hd : s.status.done = false → t.status.done = false)
    (he : s.status.err = none → t.status.err = none) (hpr : t.status.prime = s.status.prime)
    (hop : t.status.op = s.status.op) : t.Inv where
  sized := h.sized.congr hp hr
  xSign := by rw [hg, show t.x = s.x from hr .X]; exact h.xSign
  ySign := by rw [hg, show t.y = s.y from hr .Y]; exact h.ySign
  mrs := by rw [hm, hp]; exact h.mrs
  errPrime := fun hne => by rw [hpr]; exact h.errPrime fun h0 => hne (he h0)
  busy := fun c hc => by
    obtain ⟨hdone, herr, hprime, hopc⟩ := h.busy c (hph ▸ hc)
    exact ⟨hd hdone, he herr, hpr.trans hprime, hop.trans hopc⟩
  idle := fun hi => hw.trans (h.idle (hph ▸ hi))
  work := h.work.congr hp hr hg ho hph hw

theorem State.Inv.withScript {s : State} (h : s.Inv) (rest : List Event) : (s.withScript rest).Inv :=
  h.keep rfl (fun _ => rfl) rfl rfl rfl rfl rfl id id rfl rfl

theorem State.Inv.respond {s : State} (h : s.Inv) (ans : BusRsp) : (s.respond ans).Inv :=
  h.keep rfl (fun _ => rfl) rfl rfl rfl rfl rfl id id rfl rfl

theorem State.Inv.withCtrl {s : State} (h : s.Inv) (c : Ctrl) : State.Inv { s with ctrl := c } :=
  h.keep rfl (fun _ => rfl) rfl rfl rfl rfl rfl id id rfl rfl

theorem State.Inv.flagWrBusy {s : State} (h : s.Inv) : s.flagWrBusy.Inv :=
  h.keep rfl (fun _ => rfl) rfl rfl rfl rfl rfl id id rfl rfl

theorem State.Inv.clearFlags {s : State} (h : s.Inv) (v : Word) : (s.clearFlags v).Inv :=
  h.keep rfl (fun _ => rfl) rfl rfl rfl rfl rfl (fun h0 => by simp [h0]) (fun h0 => by simp [h0]) rfl rfl

/-! ### Moves of an idle block -/

/-- An idle block has no working value, so a move that keeps the sizes, the results and `STATUS` keeps the
invariant. -/
theorem State.Inv.keepIdle {s t : State} (h : s.Inv) (hi : s.phase = .idle) (hz : t.Sized) (hp : t.params = s.params)
    (hx : t.x = s.x) (hy : t.y = s.y) (hxs : t.sign.xs = s.sign.xs) (hys : t.sign.ys = s.sign.ys) (hm : t.mrs = s.mrs)
    (hst : t.status = s.status) (hph : t.phase = s.phase) (hw : t.work = s.work) : t.Inv where
  sized := hz
  xSign := by rw [hx, hxs]; exact h.xSign
  ySign := by rw [hy, hys]; exact h.ySign
  mrs := by rw [hm, hp]; exact h.mrs
  errPrime := by rw [hst]; exact h.errPrime
  busy := fun c hc => by rw [hph, hi] at hc; cases hc
  idle := fun _ => hw.trans (h.idle hi)
  work := workOk_of_fresh (hw.trans (h.idle hi))

/-- Acceptance (44_control_and_access.md R186). -/
theorem State.Inv.accept {s : State} (h : s.Inv) (c : Word) : (s.accept c).Inv where
  sized := h.sized.congr rfl fun _ => rfl
  xSign := h.xSign
  ySign := h.ySign
  mrs := h.mrs
  errPrime := fun _ => rfl
  busy := fun c' hc => by cases hc; exact ⟨rfl, rfl, rfl, rfl⟩
  idle := fun _ => rfl
  work := workOk_of_fresh rfl

theorem State.Inv.writeIdle {s : State} (h : s.Inv) (hi : s.phase = .idle) (addr : Offset) (v : Word) :
    (s.writeIdle v (target s.params addr)).Inv := by
  rcases writeIdle_cases s v (target s.params addr) with ⟨-, he⟩ | ⟨-, he⟩ | ⟨-, he⟩ | ⟨k, i, ht, he⟩ | he <;> rw [he]
  · exact h.accept v
  · exact h.keepIdle hi (h.sized.congr rfl fun _ => rfl) rfl rfl rfl rfl rfl rfl rfl rfl rfl
  · exact h.keepIdle hi (h.sized.congr rfl fun _ => rfl) rfl rfl rfl rfl rfl rfl rfl rfl rfl
  · have hv : withWord (s.regValue k) i v < 2 ^ s.params.width :=
      withWord_lt v (target_eq_word ht).1 (h.sized.regValue_lt k)
    have hz := h.sized.setOperand k hv
    cases k <;> exact h.keepIdle hi hz rfl rfl rfl rfl rfl rfl rfl rfl rfl
  · exact h

/-- A write transaction keeps the invariant (20_memory.md R65). -/
theorem State.Inv.busWrite {s : State} (h : s.Inv) (addr : Offset) (v : Word) : (s.busWrite addr v).Inv := by
  refine State.Inv.respond ?_ _
  rcases memWrite_cases s addr v with ⟨he, -⟩ | ⟨-, he⟩ | ⟨-, he⟩ | ⟨-, -, he⟩ | ⟨-, hb, he⟩ <;> rw [he]
  · exact h
  · exact h.clearFlags v
  · exact h.withCtrl _
  · exact h.flagWrBusy
  · exact h.writeIdle (busy_eq_false.mp hb) addr v

/-- The state after reset meets the invariant (10_state.md R46). -/
theorem resetFor_inv {p : Params} (hp : p.wf = true) : (State.resetFor p).Inv where
  sized := ⟨hp, Nat.two_pow_pos _, Nat.two_pow_pos _, Nat.two_pow_pos _, Nat.two_pow_pos _, Nat.two_pow_pos _,
    Nat.two_pow_pos _⟩
  xSign := fun _ => rfl
  ySign := fun _ => rfl
  mrs := by
    simp only [Params.wf, decide_eq_true_eq] at hp
    show 0 < 32 * p.nw
    omega
  errPrime := fun _ => rfl
  busy := fun c hc => by cases hc
  idle := fun _ => rfl
  work := workOk_of_fresh rfl

theorem State.Inv.reinit {s : State} (h : s.Inv) : s.reinit.Inv :=
  (resetFor_inv h.sized.params).withScript s.script

/-! ### Completion -/

/-- The results fit their registers: W bits (R25), `MRS < W` (R42). -/
def Results.Fits (p : Params) : Results → Prop
  | .none => True
  | .value r => r < 2 ^ p.width
  | .bezout g x y => g < 2 ^ p.width ∧ x.natAbs < 2 ^ p.width ∧ y.natAbs < 2 ^ p.width
  | .verdict _ e _ => e < p.width

/-- The outcome is an error, or its results fit. -/
def CmdOutcome.Fits (p : Params) : CmdOutcome → Prop
  | .ok w => w.Fits p
  | .error _ => True

/-- A completion of the command in flight with results that fit keeps the invariant (R188). -/
theorem State.Inv.commit {s : State} (h : s.Inv) {c : Word} (hph : s.phase = .run c) {o : CmdOutcome}
    (ho : o.Fits s.params) : (s.commit o).Inv := by
  obtain ⟨-, -, hprime, -⟩ := h.busy c hph
  have hidle : ∀ c', (s.commit o).phase ≠ .run c' := fun c' => by simp
  obtain ⟨hp, ha, hb, hm, hr, hx, hy⟩ := h.sized
  cases o with
  | error e =>
    exact ⟨⟨hp, ha, hb, hm, hr, hx, hy⟩, h.xSign, h.ySign, h.mrs, fun _ => hprime, fun c' hc => absurd hc (hidle c'),
      fun _ => rfl, workOk_of_fresh rfl⟩
  | ok w =>
    cases w with
    | none =>
      exact ⟨⟨hp, ha, hb, hm, hr, hx, hy⟩, h.xSign, h.ySign, h.mrs, fun _ => hprime,
        fun c' hc => absurd hc (hidle c'), fun _ => rfl, workOk_of_fresh rfl⟩
    | value v =>
      exact ⟨⟨hp, ha, hb, hm, ho, hx, hy⟩, h.xSign, h.ySign, h.mrs, fun _ => hprime,
        fun c' hc => absurd hc (hidle c'), fun _ => rfl, workOk_of_fresh rfl⟩
    | bezout g x y =>
      obtain ⟨hg, hx', hy'⟩ := ho
      refine ⟨⟨hp, ha, hb, hm, hg, hx', hy'⟩, fun h0 => ?_, fun h0 => ?_, h.mrs, fun _ => hprime,
        fun c' hc => absurd hc (hidle c'), fun _ => rfl, workOk_of_fresh rfl⟩
      · have : x = 0 := Int.natAbs_eq_zero.mp h0
        simp [this]
      · have : y = 0 := Int.natAbs_eq_zero.mp h0
        simp [this]
    | verdict v e cnt =>
      have hmrs : (BitVec.ofNat 32 e).toNat < s.params.width := by
        rw [BitVec.toNat_ofNat]
        exact (Nat.mod_le _ _).trans_lt ho
      exact ⟨⟨hp, ha, hb, hm, hr, hx, hy⟩, h.xSign, h.ySign, hmrs, fun hne => absurd rfl hne,
        fun c' hc => absurd hc (hidle c'), fun _ => rfl, workOk_of_fresh rfl⟩

/-- The engine moves its working values inside the command in flight. -/
theorem State.Inv.withWork {s : State} (h : s.Inv) {c : Word} (hph : s.phase = .run c) {w : Work}
    (hw : (s.withWork w).WorkOk) : (s.withWork w).Inv where
  sized := h.sized.congr rfl fun _ => rfl
  xSign := h.xSign
  ySign := h.ySign
  mrs := h.mrs
  errPrime := h.errPrime
  busy := h.busy
  idle := fun hi => by cases hph.symm.trans hi
  work := hw

/-! ### What each command commits fits -/

/-- A residue modulo a nonzero `M` fits (R137). -/
theorem State.Inv.mod_fits {s : State} (h : s.Inv) (hm : s.m ≠ 0) (v : Nat) : v % s.m < 2 ^ s.params.width :=
  (Nat.mod_lt _ (Nat.pos_of_ne_zero hm)).trans h.sized.m

theorem productAB_eq {s : State} (h : s.WorkOk) : s.productAB = s.a * s.b := by
  unfold State.productAB
  split
  · rename_i p hw
    exact (workOk_product h hw).2
  · rfl

theorem powResult_eq {s : State} (h : s.WorkOk) : s.powResult = s.a ^ s.b % s.m := by
  unfold State.powResult
  split
  · rename_i w hw
    obtain ⟨-, -, hreach⟩ := workOk_pow h hw
    exact finish_of_powReached hreach
  · exact modexp_eq_pow_mod s.a s.b s.m

/-- In EGCD the rows are those of its own loop. -/
theorem euclidRows_egcd {s : State} (h : s.WorkOk) (hr : s.running .egcd) :
    EuclidWork.Reached (egcdStart s) (s.euclidRows (egcdStart s)) := by
  unfold State.euclidRows
  split
  · rename_i w hw
    rcases workOk_euclid h hw with ⟨-, hreach⟩ | ⟨hrun, -⟩
    · exact hreach
    · cases running_unique hr hrun
  · exact euclidReached_start _

/-- In MODINV the rows are those of its own loop. -/
theorem euclidRows_modinv {s : State} (h : s.WorkOk) (hr : s.running .modinv) :
    EuclidWork.Reached (modinvStart s) (s.euclidRows (modinvStart s)) := by
  unfold State.euclidRows
  split
  · rename_i w hw
    rcases workOk_euclid h hw with ⟨hrun, -⟩ | ⟨-, -, hreach⟩
    · cases running_unique hr hrun
    · exact hreach
  · exact euclidReached_start _

theorem modmulOutcome_fits {s : State} (h : s.Inv) : (modmulOutcome s).Fits s.params := by
  unfold modmulOutcome
  split
  · trivial
  · rename_i hm
    exact h.mod_fits hm _

theorem modexpOutcome_fits {s : State} (h : s.Inv) : (modexpOutcome s).Fits s.params := by
  unfold modexpOutcome
  rw [powResult_eq h.work]
  split
  · trivial
  · rename_i hm
    exact h.mod_fits hm _

theorem egcdOutcome_fits {s : State} (h : s.Inv) (hr : s.running .egcd) : (egcdOutcome s).Fits s.params := by
  obtain ⟨hg, hx, hy⟩ := finish_bounds (bounded_of_euclidReached (euclidRows_egcd h.work hr))
  simp only [State.signedA, State.signedB, signedValue_natAbs] at hg hx hy
  have ha := h.sized.a
  have hb := h.sized.b
  have h1 := h.sized.one_lt
  have htoNat (g : Int) : g.toNat ≤ g.natAbs := by omega
  exact ⟨(htoNat _).trans_lt (hg.trans_lt (max_lt ha hb)), hx.trans_lt (max_lt hb h1),
    hy.trans_lt (max_lt ha h1)⟩

theorem modinvOutcome_fits {s : State} (h : s.Inv) : (modinvOutcome s).Fits s.params := by
  unfold modinvOutcome
  split
  · trivial
  · rename_i hm
    dsimp only
    split
    · exact (emodNat_lt _ hm).trans h.sized.m
    · trivial

theorem montmulOutcome_fits {s : State} (h : s.Inv) : (montmulOutcome s).Fits s.params := by
  unfold montmulOutcome
  split
  · trivial
  · split
    · trivial
    · rename_i hm
      exact h.mod_fits (fun h0 => hm (.inl h0)) _

/-- The second component of MRWIT's round is the `s` of a factoring of `n - 1`. -/
theorem witnessRound_factored {s : State} (h : s.WorkOk) (hv : smallVerdict s.m = none) (a : Nat) :
    ∃ d, Factored s.m d (witnessRound s.m a s.work).2 := by
  cases hw : s.work with
  | mrFactor d e => exact ⟨_, (workOk_mrFactor h hw).2.finish.1⟩
  | mrPow d e i b w =>
    obtain ⟨-, hf, -⟩ := workOk_mrPow h hw
    exact ⟨d, hf⟩
  | mrSquare d e i b x j =>
    obtain ⟨-, hf, -⟩ := workOk_mrSquare h hw
    exact ⟨d, hf⟩
  | fresh | product | pow | euclid | mrAwait => exact ⟨_, (factored_factor hv).1⟩

theorem State.Inv.width_pos {s : State} (h : s.Inv) : 0 < s.params.width := by
  have := h.sized.width_ge
  omega

theorem mrwitOutcome_fits {s : State} (h : s.Inv) : (mrwitOutcome s).Fits s.params := by
  unfold mrwitOutcome
  split
  · exact h.width_pos
  · rename_i hv
    split
    · trivial
    · obtain ⟨d, hf⟩ := witnessRound_factored h.work hv s.a
      exact hf.exp_lt h.sized.m

/-! ### The rounds of MRTEST -/

/-- The progress of MRTEST belongs to the test of `n` with `t` rounds. -/
def MrProgress.Ok (n t : Nat) : MrProgress → Prop
  | .decided _ e _ _ => ∃ d, Factored n d e
  | .failed _ => True
  | .waiting d e i _ => i < t ∧ Factored n d e ∧ d % 2 = 1

/-- The loop of R156 keeps its factoring. -/
theorem mrRounds_ok {n t d e : Nat} (hf : Factored n d e) (hd : d % 2 = 1) (evs : List Event) (i : Nat) :
    (mrRounds n t d e i evs).Ok n t := by
  induction evs generalizing i with
  | nil =>
    rcases mrRounds_cases n t d e i [] with ⟨-, h⟩ | ⟨hi, -, h⟩ | ⟨-, ans, rest, hne, -⟩
    · rw [h]; exact ⟨d, hf⟩
    · rw [h]; exact ⟨hi, hf, hd⟩
    · cases hne
  | cons ev evs ih =>
    rcases mrRounds_cases n t d e i (ev :: evs) with ⟨-, h⟩ | ⟨hi, -, h⟩ | ⟨-, ans, rest, heq, ⟨-, h⟩ | ⟨a, -, h⟩⟩ <;>
      rw [h]
    · exact ⟨d, hf⟩
    · exact ⟨hi, hf, hd⟩
    · trivial
    · cases heq
      unfold afterRound
      split
      · exact ih (i + 1)
      · exact ⟨d, hf⟩

theorem afterRound_ok {n t d e : Nat} (hf : Factored n d e) (hd : d % 2 = 1) (i : Nat) (passed : Bool)
    (evs : List Event) : (afterRound n t d e i passed evs).Ok n t := by
  unfold afterRound
  split
  · exact mrRounds_ok hf hd evs (i + 1)
  · exact ⟨d, hf⟩

theorem mrResume_ok {s : State} (h : s.WorkOk) (hv : smallVerdict s.m = none) (evs : List Event) :
    (mrResume s.m s.rounds.toNat evs s.work).Ok s.m s.rounds.toNat := by
  obtain ⟨hf, hd⟩ := factored_factor hv
  cases hw : s.work with
  | mrFactor d e =>
    obtain ⟨hf', hd'⟩ := (workOk_mrFactor h hw).2.finish
    exact mrRounds_ok hf' hd' evs 0
  | mrAwait d e i req =>
    obtain ⟨-, -, -, hf', hd'⟩ := workOk_mrAwait h hw
    exact mrRounds_ok hf' hd' evs i
  | mrPow d e i a w =>
    obtain ⟨-, hf', hd', -⟩ := workOk_mrPow h hw
    exact afterRound_ok hf' hd' i _ evs
  | mrSquare d e i a x j =>
    obtain ⟨-, hf', hd', -⟩ := workOk_mrSquare h hw
    exact afterRound_ok hf' hd' i _ evs
  | fresh | product | pow | euclid => exact mrRounds_ok hf hd evs 0

theorem State.Inv.conclude {s : State} (h : s.Inv) (hr : s.running .mrtest) {p : MrProgress}
    (hp : p.Ok s.m s.rounds.toNat) : (s.conclude p).Inv := by
  cases p with
  | decided v e cnt rest =>
    obtain ⟨d, hf⟩ := hp
    exact (h.withScript rest).commit hr (o := .ok (.verdict v e cnt)) (hf.exp_lt h.sized.m)
  | failed rest => exact (h.withScript rest).commit hr (o := .error .rngFailure) trivial
  | waiting d e i rest =>
    obtain ⟨hi, hf, hd⟩ := hp
    exact (h.withScript rest).withWork hr ⟨hr, hi, rfl, hf, hd⟩

/-- The engine's turn of a command keeps the invariant (R137). -/
theorem State.Inv.exec {s t : State} (h : s.Inv) {i : Instr} (hr : s.running i) (hx : exec i s = .next t) : t.Inv := by
  cases i with
  | nop => cases hx; exact h.commit hr (o := .ok .none) trivial
  | modmul => cases hx; exact h.commit hr (modmulOutcome_fits h)
  | modexp => cases hx; exact h.commit hr (modexpOutcome_fits h)
  | egcd => cases hx; exact h.commit hr (egcdOutcome_fits h hr)
  | modinv => cases hx; exact h.commit hr (modinvOutcome_fits h)
  | mrwit => cases hx; exact h.commit hr (mrwitOutcome_fits h)
  | montmul => cases hx; exact h.commit hr (montmulOutcome_fits h)
  | mrtest =>
    cases hv : smallVerdict s.m with
    | some v =>
      rw [exec_mrtest_verdict hv] at hx
      cases hx
      exact h.commit hr (o := .ok (.verdict v 0 0)) h.width_pos
    | none =>
      rw [exec_mrtest_rounds hv] at hx
      cases hx
      exact h.conclude hr (mrResume_ok h.work hv s.script)

theorem State.Inv.engineTurn {s t : State} (h : s.Inv) (ht : engineTurn s = .next t) : t.Inv := by
  rcases engineTurn_cases ht with ⟨-, rfl⟩ | ⟨c, err, hph, -, rfl⟩ | ⟨c, i, hph, hd, hx⟩
  · exact h
  · exact h.commit hph (o := .error .illegalCommand) trivial
  · exact h.exec (running_of_decode hph hd) hx

/-! ### One iteration of the engine -/

theorem tickModmul_workOk {s : State} (h : s.WorkOk) (hr : s.running .modmul) :
    (s.withWork (tickModmul s)).WorkOk := by
  unfold tickModmul
  split
  · exact h
  · rename_i hm
    exact ⟨.inl ⟨hr, hm⟩, productAB_eq h⟩

theorem tickMontmul_workOk {s : State} (h : s.WorkOk) (hr : s.running .montmul) :
    (s.withWork (tickMontmul s)).WorkOk := by
  unfold tickMontmul
  split
  · rename_i hm
    exact ⟨.inr ⟨hr, hm⟩, productAB_eq h⟩
  · exact h

theorem tickModexp_workOk {s : State} (h : s.WorkOk) (hr : s.running .modexp) :
    (s.withWork (tickModexp s)).WorkOk := by
  unfold tickModexp
  split
  · rename_i w hw
    obtain ⟨-, hm, hreach⟩ := workOk_pow h hw
    split
    · exact ⟨hr, hm, hreach⟩
    · exact ⟨hr, hm, powReached_next hreach⟩
  · split
    · exact h
    · rename_i hm
      exact ⟨hr, Nat.pos_of_ne_zero hm, powReached_start s.a s.b s.m⟩

/-- One iteration of the Euclidean loop is one more iteration from its start. -/
theorem tickEuclid_eq {s : State} {start : EuclidWork} (h : EuclidWork.Reached start (s.euclidRows start)) :
    ∃ w, s.tickEuclid start = .euclid w ∧ EuclidWork.Reached start w := by
  unfold State.euclidRows at h
  unfold State.tickEuclid
  split
  · rename_i w hw
    simp only [hw] at h
    split
    · exact ⟨w, rfl, h⟩
    · rename_i hne
      exact ⟨w.next, rfl, euclidReached_next h hne⟩
  · exact ⟨start, rfl, euclidReached_start start⟩

theorem tickEgcd_workOk {s : State} (h : s.WorkOk) (hr : s.running .egcd) : (s.withWork (tickEgcd s)).WorkOk := by
  obtain ⟨w, he, hreach⟩ := tickEuclid_eq (euclidRows_egcd h hr)
  rw [tickEgcd, he]
  exact .inl ⟨hr, hreach⟩

theorem tickModinv_workOk {s : State} (h : s.WorkOk) (hr : s.running .modinv) :
    (s.withWork (tickModinv s)).WorkOk := by
  unfold tickModinv
  split
  · exact h
  · rename_i hm
    obtain ⟨w, he, hreach⟩ := tickEuclid_eq (euclidRows_modinv h hr)
    rw [he]
    exact .inr ⟨hr, Nat.pos_of_ne_zero hm, hreach⟩

section
variable {n t d e i a x j : Nat} {w : PowWork}

theorem tickRound_mrPow_next (hex : w.ex ≠ 0) :
    tickRound n t (.mrPow d e i a w) = .mrPow d e i a (w.next n) := if_pos hex

theorem tickRound_mrPow_passed (hex : w.ex = 0) (hlast : w.acc = 1 ∨ w.acc = n - 1) :
    tickRound n t (.mrPow d e i a w) = nextRound n t d e i (.mrPow d e i a w) :=
  (if_neg (not_not.mpr hex)).trans (if_pos hlast)

theorem tickRound_mrPow_square (hex : w.ex = 0) (hlast : ¬ (w.acc = 1 ∨ w.acc = n - 1)) :
    tickRound n t (.mrPow d e i a w) = .mrSquare d e i a w.acc 0 :=
  (if_neg (not_not.mpr hex)).trans (if_neg hlast)

theorem tickRound_mrSquare_end (hend : e - 1 ≤ j) :
    tickRound n t (.mrSquare d e i a x j) = .mrSquare d e i a x j := if_pos hend

theorem tickRound_mrSquare_passed (hend : ¬ e - 1 ≤ j) (hlast : mulmod x x n = n - 1) :
    tickRound n t (.mrSquare d e i a x j) = nextRound n t d e i (.mrSquare d e i a x j) :=
  (if_neg hend).trans (if_pos hlast)

theorem tickRound_mrSquare_next (hend : ¬ e - 1 ≤ j) (hlast : mulmod x x n ≠ n - 1) :
    tickRound n t (.mrSquare d e i a x j) = .mrSquare d e i a (mulmod x x n) (j + 1) :=
  (if_neg hend).trans (if_neg hlast)

end

/-- One more squaring (42_miller_rabin.md R155). -/
theorem mulmod_pow_two_pow (a d j n : Nat) :
    mulmod (a ^ (2 ^ j * d) % n) (a ^ (2 ^ j * d) % n) n = a ^ (2 ^ (j + 1) * d) % n := by
  rw [mulmod, ← Nat.mul_mod, ← pow_add, pow_succ, ← Nat.two_mul, Nat.mul_comm _ 2, Nat.mul_assoc]

/-- After a round: the next request of MRTEST, or the end of the rounds. -/
theorem nextRound_workOk {s : State} {t d e i : Nat} {here : Work} (hhere : (s.withWork here).WorkOk)
    (ht : i + 1 < t → s.running .mrtest ∧ i + 1 < s.rounds.toNat) (hf : Factored s.m d e) (hd : d % 2 = 1) :
    (s.withWork (nextRound s.m t d e i here)).WorkOk := by
  unfold nextRound
  split
  · rename_i hlt
    obtain ⟨hr, hi⟩ := ht hlt
    exact ⟨hr, hi, rfl, hf, hd⟩
  · exact hhere

/-- One iteration inside a round (R155); `t` is the number of rounds of the command in flight. -/
theorem tickRound_workOk {s : State} (h : s.WorkOk) {t : Nat}
    (ht : ∀ i a, s.roundOf i a → i + 1 < t → s.running .mrtest ∧ i + 1 < s.rounds.toNat) :
    (s.withWork (tickRound s.m t s.work)).WorkOk := by
  have hhere : (s.withWork s.work).WorkOk := h
  cases hw : s.work with
  | mrPow d e i a w =>
    rw [hw] at hhere
    obtain ⟨hround, hf, hd, hreach⟩ := workOk_mrPow h hw
    by_cases hex : w.ex = 0
    · have hacc := powReached_acc hreach hex
      by_cases hlast : w.acc = 1 ∨ w.acc = s.m - 1
      · rw [tickRound_mrPow_passed hex hlast]
        exact nextRound_workOk hhere (ht i a hround) hf hd
      · rw [tickRound_mrPow_square hex hlast]
        rw [hacc, not_or] at hlast
        refine ⟨hround, hf, hd, Nat.zero_le _, by simpa using hacc, hlast.1, fun k hk => ?_⟩
        obtain rfl : k = 0 := by omega
        simpa using hlast.2
    · rw [tickRound_mrPow_next hex]
      exact ⟨hround, hf, hd, powReached_next hreach⟩
  | mrSquare d e i a x j =>
    rw [hw] at hhere
    obtain ⟨hround, hf, hd, hj, hx, h1, hne⟩ := workOk_mrSquare h hw
    have hsq : mulmod x x s.m = a ^ (2 ^ (j + 1) * d) % s.m := by rw [hx, mulmod_pow_two_pow]
    by_cases hend : e - 1 ≤ j
    · rw [tickRound_mrSquare_end hend]
      exact hhere
    · by_cases hlast : mulmod x x s.m = s.m - 1
      · rw [tickRound_mrSquare_passed hend hlast]
        exact nextRound_workOk hhere (ht i a hround) hf hd
      · rw [tickRound_mrSquare_next hend hlast]
        refine ⟨hround, hf, hd, by omega, hsq, h1, fun k hk => ?_⟩
        rcases Nat.lt_or_eq_of_le hk with hk' | rfl
        · exact hne k (by omega)
        · exact hsq ▸ hlast
  | fresh | product | pow | euclid | mrFactor | mrAwait =>
    rw [hw] at hhere
    exact hhere

theorem firstDraw_workOk {s : State} {d e : Nat} (hr : s.running .mrtest) (hf : Factored s.m d e) (hd : d % 2 = 1) :
    (s.withWork (firstDraw s.m s.rounds.toNat d e)).WorkOk := by
  unfold firstDraw
  split
  · rename_i h0
    exact ⟨hr, h0, rfl, hf, hd⟩
  · exact ⟨.inl hr, hf⟩

theorem tickMrtest_workOk {s : State} (h : s.WorkOk) (hr : s.running .mrtest) :
    (s.withWork (tickMrtest s)).WorkOk := by
  unfold tickMrtest
  split
  · exact h
  · rename_i hv
    split
    · rename_i d e hw
      have hf := (workOk_mrFactor h hw).2
      split
      · rename_i hd
        exact ⟨.inl hr, hf.half hd⟩
      · rename_i hd
        exact firstDraw_workOk hr hf (by omega)
    · exact ⟨.inl hr, factored_start hv⟩
    · refine tickRound_workOk h fun i a _ hi => ⟨hr, hi⟩

theorem tickMrwit_workOk {s : State} (h : s.WorkOk) (hr : s.running .mrwit) :
    (s.withWork (tickMrwit s)).WorkOk := by
  unfold tickMrwit
  split
  · exact h
  · rename_i hv
    split
    · exact h
    · rename_i hrange
      split
      · rename_i d e hw
        have hf := (workOk_mrFactor h hw).2
        split
        · rename_i hd
          exact ⟨.inr hr, hf.half hd⟩
        · exact ⟨⟨.inr ⟨hr, rfl, rfl⟩, by omega, by show s.a ≤ s.m - 2; omega⟩, hf, by omega,
            powReached_start s.a d s.m⟩
      · exact ⟨.inr hr, factored_start hv⟩
      · exact tickRound_workOk h fun i a _ hi => by omega

/-- One iteration of the engine keeps the working values in their algorithm (R29). -/
theorem tickInstr_workOk {s : State} (h : s.WorkOk) {i : Instr} (hr : s.running i) :
    (s.withWork (tickInstr i s)).WorkOk := by
  cases i with
  | nop => exact h
  | modmul => exact tickModmul_workOk h hr
  | modexp => exact tickModexp_workOk h hr
  | egcd => exact tickEgcd_workOk h hr
  | modinv => exact tickModinv_workOk h hr
  | mrtest => exact tickMrtest_workOk h hr
  | mrwit => exact tickMrwit_workOk h hr
  | montmul => exact tickMontmul_workOk h hr

/-- The tick of a command in flight. -/
theorem engineTick_of_running {s : State} {i : Instr} (hr : s.running i) :
    s.engineTick = s.withWork (tickInstr i s) := by
  have hph : s.phase = .run (encode i) := hr
  simp only [State.engineTick, hph, decode_encode_ok]

theorem State.Inv.engineTick {s : State} (h : s.Inv) : s.engineTick.Inv := by
  unfold State.engineTick
  split
  · exact h
  · rename_i c hph
    split
    · rename_i i hd
      exact h.withWork hph (tickInstr_workOk h.work (running_of_decode hph hd))
    · exact h

/-- The answer to a pending request starts the round with its value as witness, or ends the test (R75, R159). -/
theorem State.Inv.sampleAnswer {s : State} (h : s.Inv) (ans : RngAnswer) : (s.sampleAnswer ans).Inv := by
  rcases sampleAnswer_cases s ans with he | ⟨d, e, i, req, hw, hcase⟩
  · rw [he]; exact h
  · obtain ⟨hr, hi, hreq, hf, hd⟩ := workOk_mrAwait h.work hw
    rcases hcase with ⟨-, he⟩ | ⟨a, hdraw, he⟩ <;> rw [he]
    · exact h.commit hr (o := .error .rngFailure) trivial
    · obtain ⟨-, hlo, hhi, rfl⟩ := drawValue_eq_some.mp hdraw
      subst hreq
      exact h.withWork hr ⟨⟨.inl ⟨hr, hi⟩, hlo, hhi⟩, hf, hd, powReached_start _ d s.m⟩

/-! ### Every step -/

/-- Settles O10: each kind of step keeps the invariant. -/
theorem stepKeepsTheInvariant : Obligations.StepKeepsTheInvariant := by
  intro s t h hstep
  rcases step_cases hstep with ⟨-, ht⟩ | ⟨rest, -, ht⟩ | ⟨rest, -, rfl⟩ | ⟨ans, rest, -, rfl⟩ | ⟨addr, rest, -, rfl⟩ |
    ⟨addr, v, rest, -, rfl⟩ | ⟨rest, -, rfl⟩
  · exact h.engineTurn ht
  · exact (h.withScript rest).engineTurn ht
  · exact (h.withScript rest).engineTick
  · exact (h.withScript rest).sampleAnswer ans
  · exact (h.withScript rest).respond _
  · exact (h.withScript rest).busWrite addr v
  · exact (h.withScript rest).reinit

/-- Settles O9: the reset state holds no operand, no result, no flag and no command. -/
theorem resetMeetsTheInvariant : Obligations.ResetMeetsTheInvariant :=
  ⟨resetFor_inv (by decide), fun _ hp => resetFor_inv hp⟩

end Sys2Proof.Machine
end

section
/-! SUPPORT. Where the engine stands does not matter (10_state.md R29): every command's outcome is a function of its
operands, also after any number of iterations. -/

namespace Sys2Proof.Machine

/-! ### Inside a round (42_miller_rabin.md R155) -/

/-- Squarings that did not meet `n - 1` may be taken out of the loop. -/
theorem squareLoop_advance {n k a d : Nat} :
    ∀ {j : Nat}, j ≤ k → (∀ l, l ≤ j → a ^ (2 ^ l * d) % n ≠ n - 1) →
      squareLoop n k (a ^ d % n) = squareLoop n (k - j) (a ^ (2 ^ j * d) % n)
  | 0, _, _ => by simp
  | j + 1, hj, hne => by
    rw [squareLoop_advance (j := j) (by omega) fun l hl => hne l (by omega),
      show k - j = k - (j + 1) + 1 by omega, squareLoop, mulmod_pow_two_pow, if_neg (hne (j + 1) le_rfl)]

/-- The exponentiation of a round, from where it stands, is the round's. -/
theorem roundTail_of_powReached {n d e a : Nat} {w : PowWork} (h : w.Reached a d n) :
    roundTail n e (w.finish n) = mrRound n d e a := by
  rw [mrRound, modexp_eq_pow_mod, finish_of_powReached h]

/-- The squarings of a round, from where they stand, decide as the round does. -/
theorem squareLoop_of_round {n d e a j : Nat} (hj : j ≤ e - 1) (h1 : a ^ d % n ≠ 1)
    (hne : ∀ k, k ≤ j → a ^ (2 ^ k * d) % n ≠ n - 1) :
    squareLoop n (e - 1 - j) (a ^ (2 ^ j * d) % n) = mrRound n d e a := by
  have h0 : a ^ d % n ≠ n - 1 := by simpa using hne 0 (Nat.zero_le j)
  rw [mrRound, modexp_eq_pow_mod, roundTail, if_neg (not_or.mpr ⟨h1, h0⟩), squareLoop_advance hj hne]

/-! ### How MRTEST goes on from where it stands -/

theorem mrResume_mrFactor {s : State} (h : s.WorkOk) {d e : Nat} (hw : s.work = .mrFactor d e) (t : Nat)
    (evs : List Event) : mrResume s.m t evs s.work = mrResume s.m t evs .fresh := by
  rw [hw, mrResume, mrResume, (workOk_mrFactor h hw).2.finish_eq]

theorem mrResume_mrPow {s : State} (h : s.WorkOk) {d e i a : Nat} {w : PowWork} (hw : s.work = .mrPow d e i a w)
    (t : Nat) (evs : List Event) :
    mrResume s.m t evs s.work = afterRound s.m t d e i (mrRound s.m d e a) evs := by
  obtain ⟨-, -, -, hreach⟩ := workOk_mrPow h hw
  rw [hw, mrResume, roundTail_of_powReached hreach]

theorem mrResume_mrSquare {s : State} (h : s.WorkOk) {d e i a x j : Nat} (hw : s.work = .mrSquare d e i a x j)
    (t : Nat) (evs : List Event) :
    mrResume s.m t evs s.work = afterRound s.m t d e i (mrRound s.m d e a) evs := by
  obtain ⟨-, -, -, hj, rfl, h1, hne⟩ := workOk_mrSquare h hw
  rw [hw, mrResume, squareLoop_of_round hj h1 hne]

/-- A round that has its draw at the front of the input (R154). -/
theorem mrRounds_answer {n t d e i a : Nat} {ans : RngAnswer} (hi : i < t)
    (hd : drawValue (witnessReq n) ans = some a) (rest : List Event) :
    mrRounds n t d e i (.answer ans :: rest) = afterRound n t d e i (mrRound n d e a) rest := by
  simp only [mrRounds, if_neg (Nat.not_le.mpr hi), hd, afterRound]

/-- A round in flight goes on as if its witness were the answer to its draw, which is still pending. -/
theorem afterRound_eq_redraw {s : State} {d e i a : Nat} (hr : s.running .mrtest) (hround : s.roundOf i a)
    (evs : List Event) :
    afterRound s.m s.rounds.toNat d e i (mrRound s.m d e a) evs =
      mrResume s.m s.rounds.toNat (.answer ⟨a, false⟩ :: evs) (.mrAwait d e i (witnessReq s.m)) := by
  obtain ⟨⟨-, hi⟩ | ⟨hwit, -⟩, hlo, hhi⟩ := hround
  · have hdraw : drawValue (witnessReq s.m) ⟨a, false⟩ = some a := drawValue_eq_some.mpr ⟨rfl, hlo, hhi, rfl⟩
    exact (mrRounds_answer hi hdraw evs).symm
  · cases running_unique hr hwit

/-- After a round that passed, the next request or the end of the rounds: both go on as the round does (R154). -/
theorem mrResume_nextRound {n t d e i : Nat} {here : Work} {evs : List Event}
    (hhere : mrResume n t evs here = afterRound n t d e i true evs) :
    mrResume n t evs (nextRound n t d e i here) = afterRound n t d e i true evs := by
  unfold nextRound
  split
  · rfl
  · exact hhere

/-- An iteration inside a round changes nothing of how the test goes on (R155, R156). -/
theorem mrResume_tickRound (n t : Nat) (evs : List Event) (w : Work) :
    mrResume n t evs (tickRound n t w) = mrResume n t evs w := by
  cases w with
  | mrPow d e i a w =>
    by_cases hex : w.ex = 0
    · have hfin : w.finish n = w.acc := finish_of_ex_zero n hex
      by_cases hlast : w.acc = 1 ∨ w.acc = n - 1
      · have hhere : mrResume n t evs (.mrPow d e i a w) = afterRound n t d e i true evs := by
          rw [mrResume, hfin, roundTail, if_pos hlast]
        rw [tickRound_mrPow_passed hex hlast, mrResume_nextRound hhere, hhere]
      · rw [tickRound_mrPow_square hex hlast, mrResume, mrResume, hfin, roundTail, if_neg hlast, Nat.sub_zero]
    · rw [tickRound_mrPow_next hex, mrResume, mrResume, finish_next n hex]
  | mrSquare d e i a x j =>
    by_cases hend : e - 1 ≤ j
    · rw [tickRound_mrSquare_end hend]
    · have hk : e - 1 - j = e - 1 - (j + 1) + 1 := by omega
      by_cases hlast : mulmod x x n = n - 1
      · have hhere : mrResume n t evs (.mrSquare d e i a x j) = afterRound n t d e i true evs := by
          rw [mrResume, hk, squareLoop, if_pos hlast]
        rw [tickRound_mrSquare_passed hend hlast, mrResume_nextRound hhere, hhere]
      · rw [tickRound_mrSquare_next hend hlast, mrResume, mrResume, hk, squareLoop, if_neg hlast]
  | fresh | product | pow | euclid | mrFactor | mrAwait => rfl

/-- The first request, or the end of the factoring, goes on as the factoring does (R158). -/
theorem mrResume_firstDraw (n t : Nat) {d : Nat} (e : Nat) (hd : d % 2 = 1) (evs : List Event) :
    mrResume n t evs (firstDraw n t d e) = mrResume n t evs (.mrFactor d e) := by
  unfold firstDraw
  split
  · rw [mrResume, mrResume, finishFactor_odd e hd]
  · rfl

/-- An iteration of MRTEST changes nothing of how the test goes on. -/
theorem mrResume_tickMrtest {s : State} (h : s.WorkOk) (evs : List Event) :
    mrResume s.m s.rounds.toNat evs (tickMrtest s) = mrResume s.m s.rounds.toNat evs s.work := by
  unfold tickMrtest
  split
  · rfl
  · split
    · rename_i d e hw
      rw [hw]
      split
      · rename_i hd
        rw [mrResume, mrResume, finishFactor_even e (workOk_mrFactor h hw).2.ne_zero hd]
      · rename_i hd
        exact mrResume_firstDraw s.m _ e (by omega) evs
    · rename_i hw
      rw [hw]
      rfl
    · exact mrResume_tickRound _ _ evs s.work

/-! ### The outcomes from acceptance -/

/-- The round of MRWIT from where it stands is that from acceptance (R160). -/
theorem witnessRound_eq_fresh {s : State} (h : s.WorkOk) (hr : s.running .mrwit) :
    witnessRound s.m s.a s.work = witnessRound s.m s.a .fresh := by
  have hwitness : ∀ {i a}, s.roundOf i a → a = s.a := by
    rintro i a ⟨⟨htest, -⟩ | ⟨-, -, ha⟩, -⟩
    · cases running_unique hr htest
    · exact ha
  cases hw : s.work with
  | mrFactor d e => rw [witnessRound, witnessRound, (workOk_mrFactor h hw).2.finish_eq]
  | mrPow d e i a w =>
    obtain ⟨hround, hf, hd, hreach⟩ := workOk_mrPow h hw
    obtain rfl := hwitness hround
    rw [witnessRound, witnessRound, roundTail_of_powReached hreach, hf.eq_factor hd]
  | mrSquare d e i a x j =>
    obtain ⟨hround, hf, hd, hj, rfl, h1, hne⟩ := workOk_mrSquare h hw
    obtain rfl := hwitness hround
    rw [witnessRound, witnessRound, squareLoop_of_round hj h1 hne, hf.eq_factor hd]
  | fresh | product | pow | euclid | mrAwait => rfl

section
variable {s : State} (h : s.WorkOk)
include h

theorem modmulOutcome_fresh : modmulOutcome (s.withWork .fresh) = modmulOutcome s := by
  simp only [modmulOutcome, productAB_eq h]
  rfl

theorem modexpOutcome_fresh : modexpOutcome (s.withWork .fresh) = modexpOutcome s := by
  simp only [modexpOutcome, powResult_eq h, powResult_eq (workOk_of_fresh (s.withWork_work .fresh))]
  rfl

theorem montmulOutcome_fresh : montmulOutcome (s.withWork .fresh) = montmulOutcome s := by
  simp only [montmulOutcome, productAB_eq h]
  rfl

theorem egcdOutcome_fresh (hr : s.running .egcd) : egcdOutcome (s.withWork .fresh) = egcdOutcome s := by
  unfold egcdOutcome
  rw [finish_of_euclidReached (euclidRows_egcd h hr)]
  rfl

theorem modinvOutcome_fresh (hr : s.running .modinv) : modinvOutcome (s.withWork .fresh) = modinvOutcome s := by
  unfold modinvOutcome
  rw [finish_of_euclidReached (euclidRows_modinv h hr)]
  rfl

theorem mrwitOutcome_fresh (hr : s.running .mrwit) : mrwitOutcome (s.withWork .fresh) = mrwitOutcome s := by
  unfold mrwitOutcome
  rw [witnessRound_eq_fresh h hr]
  rfl

end

/-- A command other than MRTEST commits what it commits from acceptance. -/
theorem exec_eq_exec_fresh {s : State} (h : s.WorkOk) {i : Instr} (hr : s.running i) (hi : i ≠ .mrtest) :
    exec i s = exec i (s.withWork .fresh) := by
  have hcommit : ∀ {o o' : CmdOutcome}, o' = o →
      (.next (s.commit o) : Host.Outcome State Fault Refusal) = .next ((s.withWork .fresh).commit o') := by
    rintro o _ rfl
    rw [commit_withWork]
  cases i with
  | nop => rfl
  | modmul => exact hcommit (modmulOutcome_fresh h)
  | modexp => exact hcommit (modexpOutcome_fresh h)
  | egcd => exact hcommit (egcdOutcome_fresh h hr)
  | modinv => exact hcommit (modinvOutcome_fresh h hr)
  | mrwit => exact hcommit (mrwitOutcome_fresh h hr)
  | montmul => exact hcommit (montmulOutcome_fresh h)
  | mrtest => exact absurd rfl hi

/-- MRTEST ends alike from two positions, each with its input, that go on alike. -/
theorem exec_mrtest_congr {s : State} {w : Work} {evs : List Event} (hv : smallVerdict s.m = none)
    (h : mrResume s.m s.rounds.toNat s.script s.work = mrResume s.m s.rounds.toNat evs w) :
    exec .mrtest s = exec .mrtest ((s.withWork w).withScript evs) := by
  rw [exec_mrtest_rounds hv, exec_mrtest_rounds (s := (s.withWork w).withScript evs) hv, conclude_withScript,
    conclude_withWork]
  exact congrArg (fun p => Host.Outcome.next (s.conclude p)) h

/-- An iteration of the engine changes no command's outcome (R29, R154, R156). -/
theorem exec_engineTick {s : State} (h : s.Inv) {i : Instr} (hr : s.running i) : exec i s.engineTick = exec i s := by
  have htick := engineTick_of_running hr
  by_cases hi : i = .mrtest
  · subst hi
    rw [htick]
    cases hv : smallVerdict s.m with
    | some v => rw [exec_mrtest_verdict hv, exec_mrtest_verdict (s := s.withWork (tickInstr .mrtest s)) hv, commit_withWork]
    | none => exact (exec_mrtest_congr hv (mrResume_tickMrtest h.work s.script).symm).symm
  · have hr' : s.engineTick.running i := by rw [htick]; exact hr
    rw [exec_eq_exec_fresh h.engineTick.work hr' hi, exec_eq_exec_fresh h.work hr hi, htick, State.withWork_withWork]

theorem engineTurn_engineTick {s : State} (h : s.Inv) : engineTurn s.engineTick = engineTurn s := by
  cases hph : s.phase with
  | idle => simp only [State.engineTick, hph]
  | run c =>
    cases hd : decode c with
    | error err => simp only [State.engineTick, hph, hd]
    | ok i =>
      have hr := running_of_decode hph hd
      have hph' : s.engineTick.phase = .run c := by rw [engineTick_of_running hr]; exact hph
      simp only [engineTurn, hph, hph', runWord, hd, exec_engineTick h hr]

/-- A run of one step is the step. -/
theorem run_one (M : Host.Core) (s : M.State) : M.run 1 s = M.step s := by
  unfold Host.Core.run
  cases M.step s <;> rfl

theorem engineTick_withScript (s : State) (rest : List Event) :
    (s.withScript rest).engineTick = s.engineTick.withScript rest := by
  simp only [State.engineTick, State.withScript_phase]
  cases s.phase with
  | idle => rfl
  | run c =>
    dsimp only
    cases decode c with
    | error err => rfl
    | ok i => cases i <;> rfl

/-- Settles O59: the working values are a position in an algorithm, and each loop ends alike from all its positions. -/
theorem outcomeFromAnyEnginePosition : Obligations.OutcomeFromAnyEnginePosition := by
  intro s h
  refine ⟨fun i hr hi => exec_eq_exec_fresh h.work hr hi, fun d e hr hw => ?_, fun d e i a hr hw => ?_,
    fun i hr => exec_engineTick h hr, fun rest => ?_⟩
  · obtain ⟨-, hf⟩ := workOk_mrFactor h.work hw
    exact exec_mrtest_congr hf.1 (mrResume_mrFactor h.work hw _ _)
  · rcases hw with ⟨w, hw⟩ | ⟨x, j, hw⟩
    · obtain ⟨hround, hf, -⟩ := workOk_mrPow h.work hw
      refine exec_mrtest_congr hf.1 ?_
      rw [mrResume_mrPow h.work hw, afterRound_eq_redraw hr hround]
    · obtain ⟨hround, hf, -⟩ := workOk_mrSquare h.work hw
      refine exec_mrtest_congr hf.1 ?_
      rw [mrResume_mrSquare h.work hw, afterRound_eq_redraw hr hround]
  · have hrun : core.run 2 (s.withScript (.tick :: .engine :: rest)) =
        step (s.withScript (.engine :: rest)).engineTick := run_one core _
    refine hrun.trans ?_
    calc step (s.withScript (.engine :: rest)).engineTick
        = engineTurn (s.withScript rest).engineTick := by rw [engineTick_withScript, engineTick_withScript]; rfl
      _ = engineTurn (s.withScript rest) := engineTurn_engineTick (h.withScript rest)

end Sys2Proof.Machine
end

section
/-! SUPPORT. The state as a whole: what a command leaves alone, what it depends on, and the flags of `STATUS` over a
step. -/

namespace Sys2Proof.Machine

/-! ### The frame of the commands (10_state.md R23, R24) -/

/-- Settles O54: a command commits an outcome of its own shape, or moves working values and input. -/
theorem commandFrame : Obligations.CommandFrame := by
  intro i s t h
  rcases exec_effect h with ⟨o, rest, ho, rfl, hrest⟩ | ⟨rfl, w, rest, rfl⟩
  · cases ho with
    | error i e => simpa using hrest
    | nop => simp [hrest]
    | value hi r =>
      have hne : i ≠ .nop ∧ i ≠ .mrtest ∧ i ≠ .mrwit := by rcases hi with rfl | rfl | rfl | rfl <;> decide
      obtain ⟨hnop, hmrtest, hmrwit⟩ := hne
      simp [hnop, hmrtest, hmrwit, hrest]
    | bezout g x y => simp [hrest]
    | verdict hi v e cnt =>
      rcases hi with rfl | rfl
      · simp
      · simp [hrest]
  · simp

/-- The commands that do not write `R` (R23). -/
theorem mayWrite_R {i : Instr} {n : Nat} (h : mayWrite i (.word .R n) = false) :
    i = .nop ∨ i = .mrtest ∨ i = .mrwit := by
  cases i with
  | nop => exact .inl rfl
  | mrtest => exact .inr (.inl rfl)
  | mrwit => exact .inr (.inr rfl)
  | modmul | modexp | egcd | modinv | montmul => cases h

/-- Settles O55: a read looks at one register, and the frame keeps every register that is not the command's. -/
theorem commandFrameByRead : Obligations.CommandFrameByRead := by
  intro i s t addr h hmay
  obtain ⟨hp, ha, hb, hm, has, hbs, ho, hc, -, -, -, hr, hxy, hmr, -⟩ := commandFrame i s t h
  unfold State.memRead
  rw [hp]
  cases htarget : target s.params addr with
  | status => rw [htarget] at hmay; cases i <;> cases hmay
  | misaligned | unmapped | id | cmd => rfl
  | cfg => simp only [State.readTarget, hp]
  | ctrl => simp only [State.readTarget, State.ctrlWord, hc]
  | rounds => simp only [State.readTarget, ho]
  | mrs | mrcnt =>
    rw [htarget] at hmay
    obtain ⟨hmrs, hmrcnt, -⟩ := hmr (by rintro rfl; cases hmay) (by rintro rfl; cases hmay)
    simp only [State.readTarget, hmrs, hmrcnt]
  | sign =>
    rw [htarget] at hmay
    obtain ⟨-, -, hxs, hys⟩ := hxy (by rintro rfl; cases hmay)
    simp only [State.readTarget, State.signWord, has, hbs, hxs, hys]
  | word k n =>
    rw [htarget] at hmay
    have hval : t.regValue k = s.regValue k := by
      cases k with
      | A => exact ha
      | B => exact hb
      | M => exact hm
      | R => exact hr (mayWrite_R hmay)
      | X => exact (hxy (by rintro rfl; cases hmay)).1
      | Y =>
        obtain ⟨-, hy, -⟩ := hxy (by rintro rfl; cases hmay)
        exact hy
    simp only [State.readTarget, hval]

/-! ### What an outcome depends on (44_control_and_access.md R192) -/

/-- Two blocks that commit the same outcome of a command agree on what it writes. -/
theorem resultsAgree_commit {i : Instr} {o : CmdOutcome} (ho : CmdOutcome.Of i o) (s u : State) :
    ResultsAgree (s.commit o) (u.commit o) i := by
  cases ho with
  | error i e => exact ⟨rfl, fun h => by cases h⟩
  | nop => exact ⟨rfl, fun _ => trivial⟩
  | value hi r => rcases hi with rfl | rfl | rfl | rfl <;> exact ⟨rfl, fun _ => rfl⟩
  | bezout g x y => exact ⟨rfl, fun _ => ⟨rfl, rfl, rfl, rfl, rfl⟩⟩
  | verdict hi v e cnt => rcases hi with rfl | rfl <;> exact ⟨rfl, fun _ => ⟨rfl, rfl, rfl⟩⟩

/-- Both blocks commit one and the same outcome of the command. -/
def SameCommit (i : Instr) (t v : State) : Prop :=
  ∃ o s u, CmdOutcome.Of i o ∧ t = State.commit s o ∧ v = State.commit u o

theorem sameCommit_of_eq {i : Instr} {o o' : CmdOutcome} (ho : CmdOutcome.Of i o) (heq : o = o') (s u : State) :
    SameCommit i (s.commit o) (u.commit o') := ⟨o, s, u, ho, rfl, by rw [heq]⟩

/-- Two blocks just accepted that agree on what the command reads commit the same, or both go on waiting. -/
theorem sameCommit_of_readsAgree {i : Instr} {s u t v : State} (hs : s.work = .fresh) (hu : u.work = .fresh)
    (hagree : ReadsAgree s u i) (ht : exec i s = .next t) (hv : exec i u = .next v) :
    SameCommit i t v ∨ (t.phase = s.phase ∧ v.phase = u.phase) := by
  cases i with
  | nop => cases ht; cases hv; exact .inl (sameCommit_of_eq .nop rfl s u)
  | modmul =>
    obtain ⟨ha, hb, hm⟩ := hagree
    have heq : modmulOutcome s = modmulOutcome u := by simp only [modmulOutcome, State.productAB, hs, hu, ha, hb, hm]
    cases ht; cases hv
    exact .inl (sameCommit_of_eq (modmulOutcome_of s) heq s u)
  | modexp =>
    obtain ⟨ha, hb, hm⟩ := hagree
    have heq : modexpOutcome s = modexpOutcome u := by simp only [modexpOutcome, State.powResult, hs, hu, ha, hb, hm]
    cases ht; cases hv
    exact .inl (sameCommit_of_eq (modexpOutcome_of s) heq s u)
  | egcd =>
    obtain ⟨ha, hb, has, hbs⟩ := hagree
    have hstart : egcdStart s = egcdStart u := by simp only [egcdStart, State.signedA, State.signedB, ha, hb, has, hbs]
    have heq : egcdOutcome s = egcdOutcome u := by simp only [egcdOutcome, State.euclidRows, hs, hu, hstart]
    cases ht; cases hv
    exact .inl (sameCommit_of_eq (egcdOutcome_of s) heq s u)
  | modinv =>
    obtain ⟨ha, hm⟩ := hagree
    have hstart : modinvStart s = modinvStart u := by simp only [modinvStart, ha, hm]
    have heq : modinvOutcome s = modinvOutcome u := by
      simp only [modinvOutcome, State.euclidRows, hs, hu, hstart, hm]
    cases ht; cases hv
    exact .inl (sameCommit_of_eq (modinvOutcome_of s) heq s u)
  | mrwit =>
    obtain ⟨ha, hm⟩ := hagree
    have heq : mrwitOutcome s = mrwitOutcome u := by simp only [mrwitOutcome, hs, hu, ha, hm]
    cases ht; cases hv
    exact .inl (sameCommit_of_eq (mrwitOutcome_of s) heq s u)
  | montmul =>
    obtain ⟨ha, hb, hm, hp⟩ := hagree
    have heq : montmulOutcome s = montmulOutcome u := by
      simp only [montmulOutcome, State.productAB, hs, hu, ha, hb, hm, hp]
    cases ht; cases hv
    exact .inl (sameCommit_of_eq (montmulOutcome_of s) heq s u)
  | mrtest =>
    obtain ⟨hm, ho, hin⟩ := hagree
    cases hsv : smallVerdict s.m with
    | some b =>
      rw [exec_mrtest_verdict hsv] at ht
      rw [exec_mrtest_verdict (hm ▸ hsv)] at hv
      cases ht; cases hv
      exact .inl (sameCommit_of_eq (.verdict (.inl rfl) b 0 0) rfl s u)
    | none =>
      rw [exec_mrtest_rounds hsv, hs, hm, ho, hin] at ht
      rw [exec_mrtest_rounds (hm ▸ hsv), hu] at hv
      cases ht; cases hv
      cases mrResume u.m u.rounds.toNat u.script .fresh with
      | decided b e cnt rest =>
        exact .inl (sameCommit_of_eq (.verdict (.inl rfl) b e cnt) rfl (s.withScript rest) (u.withScript rest))
      | failed rest =>
        exact .inl (sameCommit_of_eq (.error _ .rngFailure) rfl (s.withScript rest) (u.withScript rest))
      | waiting d e j rest => exact .inr ⟨rfl, rfl⟩

/-- Settles O58: both blocks commit the same outcome, or both wait for a draw. -/
theorem outcomeDependsOnReadRegisters : Obligations.OutcomeDependsOnReadRegisters := by
  intro i s u t v hrs hru hs hu hagree ht hv
  rcases sameCommit_of_readsAgree hs hu hagree ht hv with ⟨o, s', u', ho, rfl, rfl⟩ | ⟨hpt, hpv⟩
  · exact ⟨by rw [commit_phase, commit_phase], fun _ => resultsAgree_commit ho s' u'⟩
  · have hrun : t.phase = .run (encode i) := hpt.trans hrs
    refine ⟨by rw [hrun, hpv]; exact hru.symm, fun hidle => ?_⟩
    cases hrun.symm.trans hidle

/-! ### The flags and the phase over a step (10_state.md R28, R38, R39) -/

@[simp] theorem setOperand_status (s : State) (k : RegIdx) (v : Nat) : (s.setOperand k v).status = s.status := by
  cases k <;> rfl

@[simp] theorem setOperand_phase (s : State) (k : RegIdx) (v : Nat) : (s.setOperand k v).phase = s.phase := by
  cases k <;> rfl

/-- An idle write other than acceptance leaves `STATUS` and the phase alone. -/
theorem writeIdle_of_ne_cmd (s : State) (v : Word) {t : Target} (ht : t ≠ .cmd) :
    (s.writeIdle v t).status = s.status ∧ (s.writeIdle v t).phase = s.phase := by
  rcases writeIdle_cases s v t with ⟨hc, -⟩ | ⟨-, he⟩ | ⟨-, he⟩ | ⟨k, i, -, he⟩ | he
  · exact absurd hc ht
  · rw [he]; exact ⟨rfl, rfl⟩
  · rw [he]; exact ⟨rfl, rfl⟩
  · rw [he]; exact ⟨setOperand_status s k _, setOperand_phase s k _⟩
  · rw [he]; exact ⟨rfl, rfl⟩

theorem writeIdle_wrBusy (s : State) (v : Word) (t : Target) :
    (s.writeIdle v t).status.wrBusy = s.status.wrBusy := by
  by_cases ht : t = .cmd
  · subst ht; rfl
  · rw [(writeIdle_of_ne_cmd s v ht).1]

/-- A write to `CMD` while idle is acceptance (R186). -/
theorem memWrite_accept {s : State} {addr : Offset} (v : Word) (ht : target s.params addr = .cmd)
    (hi : s.phase = .idle) : (s.memWrite addr v).1 = s.accept v := by
  simp [State.memWrite, State.writeTarget, State.writeIdle, ht, busy_eq_false.mpr hi]

/-- Every other write leaves the phase and `OP` alone. -/
theorem memWrite_of_not_accept {s : State} {addr : Offset} (v : Word)
    (h : ¬ (target s.params addr = .cmd ∧ s.phase = .idle)) :
    (s.memWrite addr v).1.phase = s.phase ∧ (s.memWrite addr v).1.status.op = s.status.op := by
  rcases memWrite_cases s addr v with ⟨he, -⟩ | ⟨-, he⟩ | ⟨-, he⟩ | ⟨-, -, he⟩ | ⟨-, hb, he⟩ <;> rw [he]
  · exact ⟨rfl, rfl⟩
  · exact ⟨rfl, rfl⟩
  · exact ⟨rfl, rfl⟩
  · exact ⟨rfl, rfl⟩
  · obtain ⟨hst, hph⟩ := writeIdle_of_ne_cmd s v fun ht => h ⟨ht, busy_eq_false.mp hb⟩
    exact ⟨hph, by rw [hst]⟩

/-- A write to `STATUS` clears `WRBUSY` where its bit 4 is set; any other sets it where the block is busy and the
target guarded (R38). -/
theorem memWrite_wrBusy (s : State) (addr : Offset) (v : Word) :
    (s.memWrite addr v).1.status.wrBusy =
      if target s.params addr = .status then s.status.wrBusy && !v.getLsbD 4
      else s.status.wrBusy || (s.busy && (target s.params addr).guarded) := by
  by_cases ht : target s.params addr = .status
  · simp [State.memWrite, State.writeTarget, ht]
  · rw [if_neg ht]
    rcases memWrite_cases s addr v with ⟨he, hg⟩ | ⟨hst, -⟩ | ⟨hc, he⟩ | ⟨hg, hb, he⟩ | ⟨hg, hb, he⟩
    · simp [he, hg]
    · exact absurd hst ht
    · simp [he, hc, Target.guarded]
    · simp [he, hg, hb]
    · simp [he, hb, writeIdle_wrBusy]

/-- Settles O6: acceptance is the one way to RUN, completion and reset are the ways back. -/
theorem phaseTransitions : Obligations.PhaseTransitions := by
  intro s t h
  rcases step_kinds h with ⟨hside, -⟩ | ⟨addr, v, rest, hs, rfl⟩ | ⟨rest, hs, rfl⟩
  · rcases hside.phase with hph | ⟨hidle, hdone⟩
    · exact ⟨fun hi => .inl (hph.trans hi), fun c hc => .inl (hph.trans hc)⟩
    · exact ⟨fun _ => .inl hidle, fun c _ => .inr ⟨hidle, .inl hdone⟩⟩
  · by_cases hacc : target s.params addr = .cmd ∧ s.phase = .idle
    · have hph : ((s.withScript rest).busWrite addr v).phase = .run v :=
        congrArg State.phase (memWrite_accept (s := s.withScript rest) v hacc.1 hacc.2)
      have haddr : addr = 0x0008#15 := (target_eq_ctl (reg := .cmd)).mp hacc.1
      refine ⟨fun _ => .inr ⟨v, rest, haddr ▸ hs, hph⟩, fun c hc => ?_⟩
      cases hacc.2.symm.trans hc
    · have hph : ((s.withScript rest).busWrite addr v).phase = s.phase :=
        (memWrite_of_not_accept (s := s.withScript rest) v hacc).1
      exact ⟨fun hi => .inl (hph.trans hi), fun c hc => .inl (hph.trans hc)⟩
  · exact ⟨fun _ => .inl rfl, fun c _ => .inr ⟨rfl, .inr ⟨rest, hs⟩⟩⟩

/-- Settles O28: only acceptance and reset write `OP`. -/
theorem opcodeByteKept : Obligations.OpcodeByteKept := by
  intro s t h
  have hcmd : target s.params 0x0008#15 = .cmd := (target_eq_ctl (reg := .cmd)).mpr rfl
  rcases step_kinds h with ⟨hside, hnw, hnr⟩ | ⟨addr, v, rest, hs, rfl⟩ | ⟨rest, hs, rfl⟩
  · exact ⟨fun c rest _ hs => absurd hs (hnw _ c rest), fun rest hs => absurd hs (hnr rest), fun _ _ => hside.op⟩
  · refine ⟨fun c rest' hi hs' => ?_, fun rest' hs' => ?_, fun hna _ => ?_⟩
    · cases hs.symm.trans hs'
      exact congrArg (fun u => u.status.op) (memWrite_accept (s := s.withScript rest) v hcmd hi)
    · cases hs.symm.trans hs'
    · refine (memWrite_of_not_accept (s := s.withScript rest) v ?_).2
      rintro ⟨ht, hi⟩
      obtain rfl : addr = 0x0008#15 := (target_eq_ctl (reg := .cmd)).mp ht
      exact hna v rest hi hs
  · refine ⟨fun c rest' _ hs' => ?_, fun _ _ => rfl, fun _ hnr => absurd hs (hnr rest)⟩
    cases hs.symm.trans hs'

/-- Settles O27: a write sets or clears `WRBUSY` by its target, reset clears it, and nothing else touches it. -/
theorem writeBusyIsSticky : Obligations.WriteBusyIsSticky := by
  intro s t h
  rcases step_kinds h with ⟨hside, hnw, hnr⟩ | ⟨addr, v, rest, hs, rfl⟩ | ⟨rest, hs, rfl⟩
  · rw [hside.wrBusy]
    refine ⟨fun h1 => .inl h1, fun h0 => ⟨fun h1 => absurd h1 (by simp [h0]), ?_⟩, ?_⟩
    · rintro ⟨-, addr, v, rest, hs, -⟩
      exact absurd hs (hnw addr v rest)
    · rintro (⟨rest, hs⟩ | ⟨v, rest, hs, -⟩)
      · exact absurd hs (hnr rest)
      · exact absurd hs (hnw _ v rest)
  · have hwr : ((s.withScript rest).busWrite addr v).status.wrBusy =
        if target s.params addr = .status then s.status.wrBusy && !v.getLsbD 4
        else s.status.wrBusy || (s.busy && (target s.params addr).guarded) :=
      memWrite_wrBusy (s.withScript rest) addr v
    refine ⟨fun h1 => ?_, fun h0 => ⟨fun h1 => ?_, ?_⟩, ?_⟩
    · by_cases hclear : target s.params addr = .status ∧ v.getLsbD 4 = true
      · obtain rfl : addr = 0x000C#15 := (target_eq_ctl (reg := .status)).mp hclear.1
        exact .inr (.inr ⟨v, rest, hs, hclear.2⟩)
      · left
        rw [hwr, h1]
        split
        · rename_i ht
          simpa using fun hv => hclear ⟨ht, hv⟩
        · simp
    · rw [hwr, h0] at h1
      split at h1
      · cases h1
      · obtain ⟨hb, hg⟩ : s.busy = true ∧ (target s.params addr).guarded = true := by simpa using h1
        exact ⟨hb, addr, v, rest, hs, guarded_target_iff.mp hg⟩
    · rintro ⟨hb, addr', v', rest', hs', hg⟩
      cases hs.symm.trans hs'
      have hguard : (target s.params addr).guarded = true := guarded_target_iff.mpr hg
      have ht : target s.params addr ≠ .status := fun ht => by rw [ht] at hguard; cases hguard
      rw [hwr, if_neg ht, hb, hguard]
      simp
    · rintro (⟨rest', hs'⟩ | ⟨v', rest', hs', hv⟩)
      · cases hs.symm.trans hs'
      · cases hs.symm.trans hs'
        have ht : target s.params 0x000C#15 = .status := (target_eq_ctl (reg := .status)).mpr rfl
        rw [hwr, if_pos ht, hv]
        simp
  · have hwr : (s.withScript rest).reinit.status.wrBusy = false := rfl
    refine ⟨fun _ => .inr (.inl ⟨rest, hs⟩), fun _ => ⟨fun h1 => ?_, ?_⟩, fun _ => hwr⟩
    · cases hwr.symm.trans h1
    · rintro ⟨-, addr, v, rest', hs', -⟩
      cases hs.symm.trans hs'

end Sys2Proof.Machine
end

section
/-! SUPPORT. The request of MRTEST (10_state.md R48), reset (R46), the words of the control registers (R31, R33, R40,
R44), the interrupt (R47) and the hidden iteration (R29). -/

namespace Sys2Proof.Machine

/-! ### A round as mathematics (42_miller_rabin.md R155) -/

/-- The squarings find `n - 1` among the powers that follow. -/
theorem squareLoop_iff {n a d : Nat} (k i : Nat) :
    squareLoop n k (a ^ (2 ^ i * d) % n) = true ↔ ∃ j, i < j ∧ j ≤ i + k ∧ a ^ (2 ^ j * d) % n = n - 1 := by
  induction k generalizing i with
  | zero =>
    simp only [squareLoop, Bool.false_eq_true, false_iff]
    rintro ⟨j, hij, hji, -⟩
    omega
  | succ k ih =>
    rw [squareLoop, mulmod_pow_two_pow]
    by_cases hlast : a ^ (2 ^ (i + 1) * d) % n = n - 1
    · rw [if_pos hlast]
      exact ⟨fun _ => ⟨i + 1, by omega, by omega, hlast⟩, fun _ => rfl⟩
    · rw [if_neg hlast, ih]
      constructor
      · rintro ⟨j, hij, hjk, hj⟩
        exact ⟨j, by omega, by omega, hj⟩
      · rintro ⟨j, hij, hjk, hj⟩
        have hne : j ≠ i + 1 := fun h => hlast (h ▸ hj)
        exact ⟨j, by omega, by omega, hj⟩

/-- The round of the engine is the test of R155. -/
theorem mrRound_iff {n d e a : Nat} (he : 0 < e) : mrRound n d e a = true ↔ WitnessPasses n d e a := by
  have hsq := squareLoop_iff (n := n) (a := a) (d := d) (e - 1) 0
  simp only [pow_zero, Nat.one_mul] at hsq
  rw [mrRound, modexp_eq_pow_mod, roundTail, WitnessPasses]
  constructor
  · intro h
    split at h
    · rename_i h0
      exact h0.imp_right fun hlast => ⟨0, he, by simpa using hlast⟩
    · obtain ⟨j, -, hj, hlast⟩ := hsq.mp h
      exact .inr ⟨j, by omega, hlast⟩
  · rintro (h1 | ⟨j, hj, hlast⟩)
    · rw [if_pos (.inl h1)]
    · split
      · rfl
      · rename_i h0
        have hj0 : j ≠ 0 := by
          rintro rfl
          exact h0 (.inr (by simpa using hlast))
        exact hsq.mpr ⟨j, by omega, by omega, hlast⟩

/-- Draws that pass are used up one a round (R154, R156). -/
theorem mrRounds_draws {n t d e : Nat} (rest : List Event) (draws : List RngAnswer) (i : Nat)
    (hlen : i + draws.length ≤ t) (hpass : ∀ ans ∈ draws, InRange n ans ∧ mrRound n d e ans.val = true) :
    mrRounds n t d e i (draws.map .answer ++ rest) = mrRounds n t d e (i + draws.length) rest := by
  induction draws generalizing i with
  | nil => rfl
  | cons ans draws ih =>
    obtain ⟨⟨hfail, hlo, hhi⟩, hround⟩ := hpass ans (by simp)
    rw [List.length_cons] at hlen
    have hdraw : drawValue (witnessReq n) ans = some ans.val := drawValue_eq_some.mpr ⟨hfail, hlo, hhi, rfl⟩
    rw [List.map_cons, List.cons_append, mrRounds_answer (by omega) hdraw, hround, afterRound, if_pos rfl,
      ih (i + 1) (by omega) fun x hx => hpass x (by simp [hx]), List.length_cons]
    congr 1
    omega

/-- About to draw for round `i`, the test goes on with the loop of R156 from there. -/
theorem mrResume_atRound {s : State} {d e i : Nat} (hf : Factored s.m d e) (hd : d % 2 = 1) (hat : s.atRound d e i)
    (t : Nat) (evs : List Event) : mrResume s.m t evs s.work = mrRounds s.m t d e i evs := by
  rcases hat with ⟨hw, rfl⟩ | hw
  · rw [hw, mrResume, hf.eq_factor hd]
  · rw [hw, mrResume]

/-- A round whose draw is not there waits (R48). -/
theorem mrRounds_waits {n t d e i : Nat} {evs : List Event} (hi : i < t)
    (hno : ∀ ans more, evs ≠ .answer ans :: more) : mrRounds n t d e i evs = .waiting d e i evs := by
  rcases mrRounds_cases n t d e i evs with ⟨hle, -⟩ | ⟨-, -, h⟩ | ⟨-, ans, rest, he, -⟩
  · omega
  · exact h
  · exact absurd he (hno ans rest)

/-! ### The request on the randomness port (R48, R74) -/

theorem rngRequest_eq_some {s : State} {req : RngReq} :
    s.rngRequest = some req ↔ ∃ d e i, s.work = .mrAwait d e i req := by
  unfold State.rngRequest
  cases s.work <;> simp

/-- While the block is busy a write does not touch the working values. -/
theorem memWrite_work_of_busy {s : State} (hb : s.busy = true) (addr : Offset) (v : Word) :
    (s.memWrite addr v).1.work = s.work := by
  rcases memWrite_cases s addr v with ⟨he, -⟩ | ⟨-, he⟩ | ⟨-, he⟩ | ⟨-, -, he⟩ | ⟨-, hidle, -⟩
  · rw [he]
  · rw [he]; rfl
  · rw [he]
  · rw [he]; rfl
  · rw [hb] at hidle; cases hidle

/-- An MRTEST that waits for its draw does not move. -/
theorem tickMrtest_mrAwait {s : State} {d e i : Nat} {req : RngReq} (hw : s.work = .mrAwait d e i req) :
    tickMrtest s = s.work := by
  unfold tickMrtest
  rw [hw]
  split <;> rfl

/-- A request is held through every event of the host but reset, and through iterations of the engine. -/
theorem rngRequest_held {s t : State} {req : RngReq} {ev : Event} {rest : List Event} (hr : s.running .mrtest)
    (hreq : s.rngRequest = some req)
    (hev : (∃ addr, ev = .read addr) ∨ (∃ addr v, ev = .write addr v) ∨ ev = .tick)
    (hstep : step (s.withScript (ev :: rest)) = .next t) : t.rngRequest = some req := by
  obtain ⟨d, e, i, hw⟩ := rngRequest_eq_some.mp hreq
  suffices hwork : t.work = s.work from rngRequest_eq_some.mpr ⟨d, e, i, hwork.trans hw⟩
  rcases hev with ⟨addr, rfl⟩ | ⟨addr, v, rfl⟩ | rfl
  · cases hstep
    rfl
  · cases hstep
    exact memWrite_work_of_busy (s := s.withScript rest) (busy_eq_true.mpr ⟨_, hr⟩) addr v
  · cases hstep
    have htick : ((s.withScript (.tick :: rest)).withScript rest).engineTick = _ :=
      engineTick_of_running (s := s.withScript rest) hr
    rw [htick]
    exact tickMrtest_mrAwait (s := s.withScript rest) hw

/-- Settles O47: the draws that are there are used up, and the next round's request stays on the port. -/
theorem mrtestWaitsForDraw : Obligations.MrtestWaitsForDraw := by
  refine ⟨fun s d e i draws rest hodd hm hd hprod hat hs hno hlt hpass => ?_,
    fun s t req ev rest hr hreq hev hstep => rngRequest_held hr hreq hev hstep, fun s req h hreq => ?_⟩
  · have hf : Factored s.m d e := ⟨smallVerdict_eq_none.mpr ⟨hodd, hm⟩, hprod⟩
    have hround : ∀ ans ∈ draws, InRange s.m ans ∧ mrRound s.m d e ans.val = true := fun ans hans =>
      (hpass ans hans).imp_right (mrRound_iff (hf.exp_pos hd)).mpr
    have hwait : mrResume s.m s.rounds.toNat s.script s.work = .waiting d e (i + draws.length) rest := by
      rw [mrResume_atRound hf hd hat, hs, mrRounds_draws rest draws i hlt.le hround, mrRounds_waits hlt hno]
    have hexec := exec_mrtest_rounds hf.1
    rw [hwait] at hexec
    refine ⟨hexec, fun t ht => ?_⟩
    rw [hexec] at ht
    cases ht
    rfl
  · obtain ⟨d, e, i, hw⟩ := rngRequest_eq_some.mp hreq
    obtain ⟨hr, -, hreq', -⟩ := workOk_mrAwait h.work hw
    exact ⟨hr, hreq'⟩

/-! ### Reset (R46, R262) -/

/-- Settles O11: the step of a reset event is `reinit`, whose fields stand in its definition. -/
theorem resetState : Obligations.ResetState := by
  intro s rest hs
  have hstep : step s = .next (s.withScript rest).reinit := by simp only [step, nextEvent, hs]
  refine ⟨fun t ht => ?_, hstep⟩
  rw [hstep] at ht
  cases ht
  exact ⟨rfl, rfl, rfl, rfl, rfl, rfl⟩

/-! ### The words of the control registers (R31, R33, R40, R44, R45) -/

theorem bit_le_one (f : Bool) : bit f ≤ 1 := by cases f <;> decide

theorem errCode_le (e : Option CmdError) : errCode e ≤ 5 := by
  rcases e with _ | e
  · decide
  · cases e <;> decide

/-- A flag of a word is read off by division. -/
theorem getLsbD_ofNat_eq {n i : Nat} {f : Bool} (hi : i < 32) (h : n / 2 ^ i % 2 = bit f) :
    (BitVec.ofNat 32 n).getLsbD i = f := by
  rw [BitVec.getLsbD_ofNat, Nat.testBit_eq_decide_div_mod_eq, h]
  cases f <;> simp [bit, hi]

/-- A field of a word is read off by division. -/
theorem extractLsb'_ofNat_toNat {n start len : Nat} (hn : n < 2 ^ 32) :
    ((BitVec.ofNat 32 n).extractLsb' start len).toNat = n / 2 ^ start % 2 ^ len := by
  rw [BitVec.extractLsb'_toNat, BitVec.toNat_ofNat, Nat.mod_eq_of_lt hn, Nat.shiftRight_eq_div_pow]

theorem extractLsb'_ofNat_eq {n start len : Nat} {v : BitVec len} (hn : n < 2 ^ 32)
    (h : n / 2 ^ start % 2 ^ len = v.toNat) : (BitVec.ofNat 32 n).extractLsb' start len = v :=
  BitVec.eq_of_toNat_eq ((extractLsb'_ofNat_toNat hn).trans h)

/-- Reserved bits read 0 (R45). -/
theorem extractLsb'_ofNat_eq_zero {n start len : Nat} (hn : n < 2 ^ 32) (h : n / 2 ^ start % 2 ^ len = 0) :
    (BitVec.ofNat 32 n).extractLsb' start len = 0#len :=
  extractLsb'_ofNat_eq hn (by rw [h, BitVec.toNat_ofNat, Nat.zero_mod])

/-- Settles O14: each field of `STATUS` is its own range of digits. -/
theorem statusWordLayout : Obligations.StatusWordLayout := by
  intro s
  have hbusy := bit_le_one s.busy
  have hdone := bit_le_one s.status.done
  have herrf := bit_le_one s.errf
  have hprime := bit_le_one s.status.prime
  have hwr := bit_le_one s.status.wrBusy
  have herr := errCode_le s.status.err
  have hop := s.status.op.isLt
  unfold State.statusWord
  refine ⟨getLsbD_ofNat_eq (by omega) ?_, getLsbD_ofNat_eq (by omega) ?_, getLsbD_ofNat_eq (f := s.errf) (by omega) ?_,
    getLsbD_ofNat_eq (by omega) ?_, getLsbD_ofNat_eq (by omega) ?_, extractLsb'_ofNat_eq_zero (by omega) ?_,
    extractLsb'_ofNat_eq (by omega) (Eq.trans (b := errCode s.status.err) ?_ ?code),
    extractLsb'_ofNat_eq_zero (by omega) ?_, extractLsb'_ofNat_eq (by omega) ?_,
    extractLsb'_ofNat_eq_zero (by omega) ?_⟩
  case code =>
    rcases s.status.err with _ | e
    · rfl
    · cases e <;> rfl
  all_goals omega

/-- Settles O15: each field of `CFG`, `CTRL` and `SIGN` is its own range of digits. -/
theorem configControlSignLayout : Obligations.ConfigControlSignLayout := by
  refine ⟨fun p hp => ?_, fun s => ?_⟩
  · have hmont := bit_le_one p.mont
    obtain ⟨-, hnw⟩ : 1 ≤ p.nw ∧ p.nw ≤ 1024 := by simpa [Params.wf] using hp
    unfold cfgWord
    refine ⟨(extractLsb'_ofNat_toNat (by omega)).trans ?_, getLsbD_ofNat_eq (by omega) ?_,
      extractLsb'_ofNat_eq_zero (by omega) ?_, extractLsb'_ofNat_eq_zero (by omega) ?_⟩
    all_goals omega
  · have hdone := bit_le_one s.ctrl.ieDone
    have herr := bit_le_one s.ctrl.ieErr
    have has := bit_le_one s.sign.as
    have hbs := bit_le_one s.sign.bs
    have hxs := bit_le_one s.sign.xs
    have hys := bit_le_one s.sign.ys
    unfold State.ctrlWord State.signWord
    refine ⟨getLsbD_ofNat_eq (by omega) ?_, getLsbD_ofNat_eq (by omega) ?_, extractLsb'_ofNat_eq_zero (by omega) ?_,
      getLsbD_ofNat_eq (by omega) ?_, getLsbD_ofNat_eq (by omega) ?_, extractLsb'_ofNat_eq_zero (by omega) ?_,
      getLsbD_ofNat_eq (by omega) ?_, getLsbD_ofNat_eq (by omega) ?_, extractLsb'_ofNat_eq_zero (by omega) ?_⟩
    all_goals omega

/-! ### The interrupt (R47) and the hidden iteration (R29) -/

/-- Settles O26: acceptance clears `DONE` and `ERR`, every completion sets `DONE` and keeps `CTRL`. -/
theorem interruptLevel : Obligations.InterruptLevel := by
  refine ⟨fun _ => rfl, fun _ _ => rfl, fun i s t hr hx hidle => ?_⟩
  rcases exec_effect hx with ⟨o, rest, -, rfl, -⟩ | ⟨-, w, rest, rfl⟩
  · simp [State.irq, State.errf]
  · cases hr.symm.trans hidle

/-- Settles O60: an iteration moves `work` alone, and no read and not `irq` look at it. -/
theorem engineStepIsInvisible : Obligations.EngineStepIsInvisible := by
  intro s rest hs
  obtain ⟨w, hw⟩ := engineTick_eq (s.withScript rest)
  have hstep : step s = .next ((s.withScript rest).withWork w) := by simp only [step, nextEvent, hs, hw]
  refine ⟨w, hstep, fun t ht => ?_⟩
  rw [hstep] at ht
  cases ht
  exact ⟨rfl, memRead_congr rfl (fun _ => rfl) rfl rfl rfl rfl rfl rfl rfl⟩

end Sys2Proof.Machine
end

section
/-! SUPPORT. The host bus (20_memory.md): where an offset leads, what a read answers and a write does there, the two
transactions as steps, what a running command leaves alone, and the answers of the randomness source. -/

namespace Sys2Proof.Machine

/-! ### Words of a register (R69) -/

theorem wordOf_getLsbD (v i : Nat) {j : Nat} (hj : j < 32) : (wordOf v i).getLsbD j = v.testBit (32 * i + j) := by
  rw [wordOf, BitVec.getLsbD_ofNat, Nat.testBit_div_two_pow, Nat.add_comm j]
  simp [hj]

/-- The bits of word `i` are the new word's, every other bit is kept. -/
theorem withWord_testBit (v i : Nat) (w : Word) (n : Nat) :
    (withWord v i w).testBit n =
      if 32 * i ≤ n ∧ n < 32 * (i + 1) then w.getLsbD (n - 32 * i) else v.testBit n := by
  have hlow : v % 2 ^ (32 * i) < 2 ^ (32 * i) := Nat.mod_lt _ (by positivity)
  rw [withWord, Nat.add_comm, Nat.testBit_two_pow_mul_add _ hlow, Nat.add_comm w.toNat,
    Nat.testBit_two_pow_mul_add _ w.isLt]
  by_cases hbelow : n < 32 * i
  · rw [if_pos hbelow, if_neg (by omega), Nat.testBit_mod_two_pow]
    simp [hbelow]
  · rw [if_neg hbelow]
    by_cases hin : n - 32 * i < 32
    · rw [if_pos hin, if_pos (by omega)]
      rfl
    · rw [if_neg hin, if_neg (by omega), Nat.testBit_div_two_pow]
      congr 1
      omega

/-- Writing one word keeps the others. -/
theorem wordOf_withWord_of_ne (v : Nat) {i j : Nat} (w : Word) (h : j ≠ i) :
    wordOf (withWord v i w) j = wordOf v j := by
  apply BitVec.eq_of_getLsbD_eq
  intro n hn
  rw [wordOf_getLsbD _ _ hn, wordOf_getLsbD _ _ hn, withWord_testBit, if_neg (by omega)]

/-! ### The register map (R61, R66, R67) -/

theorem target_misaligned (p : Params) {addr : Offset} (h : addr.toNat % 4 ≠ 0) : target p addr = .misaligned := by
  simp [target, h]

theorem target_word_of_wf {p : Params} {k : RegIdx} {i : Nat} {addr : Offset} (hp : p.wf = true) (hi : i < p.nw)
    (ha : addr.toNat = 0x1000 * (k.index + 1) + 4 * i) : target p addr = .word k i := by
  obtain ⟨-, hnw⟩ : 1 ≤ p.nw ∧ p.nw ≤ 1024 := by simpa [Params.wf] using hp
  exact target_word hnw hi ha

/-- A target is a bus error, a control register or a word. -/
theorem Target.kinds (t : Target) :
    (t = .misaligned ∨ t = .unmapped) ∨ (∃ reg : CtlReg, t = reg.target) ∨ ∃ k i, t = .word k i := by
  cases t with
  | misaligned => exact .inl (.inl rfl)
  | unmapped => exact .inl (.inr rfl)
  | id => exact .inr (.inl ⟨.id, rfl⟩)
  | cfg => exact .inr (.inl ⟨.cfg, rfl⟩)
  | cmd => exact .inr (.inl ⟨.cmd, rfl⟩)
  | status => exact .inr (.inl ⟨.status, rfl⟩)
  | ctrl => exact .inr (.inl ⟨.ctrl, rfl⟩)
  | rounds => exact .inr (.inl ⟨.rounds, rfl⟩)
  | mrs => exact .inr (.inl ⟨.mrs, rfl⟩)
  | mrcnt => exact .inr (.inl ⟨.mrcnt, rfl⟩)
  | sign => exact .inr (.inl ⟨.sign, rfl⟩)
  | word k i => exact .inr (.inr ⟨k, i, rfl⟩)

/-- Every control register lies below 0x0024. -/
theorem CtlReg.offset_lt (reg : CtlReg) : reg.offset.toNat < 0x0024 := by cases reg <;> decide

theorem RegIdx.index_le (k : RegIdx) : k.index ≤ 5 := by cases k <;> decide

/-- The index of a word is the place of its offset in the stride, so it is below 1024 whatever `NW` is. -/
theorem index_of_target_word {p : Params} {k : RegIdx} {i : Nat} {addr : Offset} (h : target p addr = .word k i) :
    i = addr.toNat % 0x1000 / 4 := by
  unfold target at h
  dsimp only at h
  split at h
  · cases h
  · split at h
    · unfold controlTarget at h
      split at h <;> cases h
    · split at h
      · split at h
        · cases h; rfl
        · cases h
      · cases h

/-- The three ranges R61 leaves unmapped hold no register; the misaligned offsets among them are R66's. -/
theorem target_of_unmapped {p : Params} {addr : Offset}
    (h : (0x0024 ≤ addr.toNat ∧ addr.toNat ≤ 0x0FFF) ∨
      (0x1000 ≤ addr.toNat ∧ addr.toNat ≤ 0x6FFF ∧ p.nw ≤ addr.toNat % 0x1000 / 4) ∨ 0x7000 ≤ addr.toNat) :
    target p addr = .misaligned ∨ target p addr = .unmapped := by
  rcases (target p addr).kinds with herr | ⟨reg, hreg⟩ | ⟨k, i, hword⟩
  · exact herr
  · have hlt := reg.offset_lt
    rw [← target_eq_ctl.mp hreg] at hlt
    omega
  · have hk := k.index_le
    have hindex := index_of_target_word hword
    obtain ⟨hi, ha⟩ := target_eq_word hword
    omega

/-! ### The operand registers (10_state.md R21) -/

theorem regValue_setOperand_same (s : State) {k : RegIdx} (hk : k.isOperand = true) (v : Nat) :
    (s.setOperand k v).regValue k = v := by
  cases k with
  | A | B | M => rfl
  | R | X | Y => cases hk

theorem regValue_setOperand_of_ne (s : State) {j k : RegIdx} (h : j ≠ k) (v : Nat) :
    (s.setOperand k v).regValue j = s.regValue j := by
  cases k with
  | A => cases j <;> [exact absurd rfl h; rfl; rfl; rfl; rfl; rfl]
  | B => cases j <;> [rfl; exact absurd rfl h; rfl; rfl; rfl; rfl]
  | M => cases j <;> [rfl; rfl; exact absurd rfl h; rfl; rfl; rfl]
  | R | X | Y => rfl

@[simp] theorem setOperand_params (s : State) (k : RegIdx) (v : Nat) : (s.setOperand k v).params = s.params := by
  cases k <;> rfl

/-- Writing an operand register changes what its own words read as, and nothing else. -/
theorem readTarget_setOperand (s : State) {k : RegIdx} (v : Nat) {t : Target} (ht : ∀ j, t ≠ .word k j) :
    (s.setOperand k v).readTarget t = s.readTarget t := by
  cases t with
  | word k' j =>
    have hne : k' ≠ k := by
      rintro rfl
      exact ht j rfl
    simp only [State.readTarget, regValue_setOperand_of_ne s hne]
  | _ => cases k <;> rfl

/-! ### Reads (R64) -/

theorem memRead_ctl (s : State) (reg : CtlReg) : s.memRead reg.offset = s.readTarget reg.target := by
  rw [State.memRead, target_eq_ctl.mpr rfl]

theorem memRead_word {s : State} {k : RegIdx} {i : Nat} {addr : Offset} (ht : target s.params addr = .word k i) :
    s.memRead addr = (wordOf (s.regValue k) i, false) := by
  rw [State.memRead, ht, State.readTarget]

theorem memRead_withScript (s : State) (rest : List Event) (addr : Offset) :
    (s.withScript rest).memRead addr = s.memRead addr :=
  memRead_congr rfl (fun _ => rfl) rfl rfl rfl rfl rfl rfl rfl addr

/-! ### Writes (R65, R68, R72) -/

theorem memWrite_ctl (s : State) (reg : CtlReg) (v : Word) :
    s.memWrite reg.offset v = s.writeTarget v reg.target := by
  rw [State.memWrite, target_eq_ctl.mpr rfl]

/-- The targets a write to which is ignored without an error (R68). -/
def Target.readOnly : Target → Bool
  | .id | .cfg | .mrs | .mrcnt => true
  | .word k _ => !k.isOperand
  | .misaligned | .unmapped | .cmd | .status | .ctrl | .rounds | .sign => false

theorem memWrite_readOnly {s : State} {addr : Offset} (ht : (target s.params addr).readOnly = true) (v : Word) :
    s.memWrite addr v = (s, false) := by
  unfold State.memWrite
  cases htarget : target s.params addr with
  | id | cfg | mrs | mrcnt => rfl
  | word k i =>
    have hk : k.isOperand = false := by simpa [htarget, Target.readOnly] using ht
    simp [State.writeTarget, hk]
  | misaligned | unmapped | cmd | status | ctrl | rounds | sign => rw [htarget] at ht; cases ht

/-- A write to a guarded target is flagged by a busy block and taken by an idle one (R38, R65, R72). -/
theorem memWrite_guarded {s : State} {addr : Offset} (hg : (target s.params addr).guarded = true) (v : Word) :
    s.memWrite addr v = (if s.busy then s.flagWrBusy else s.writeIdle v (target s.params addr), false) := by
  unfold State.memWrite
  cases htarget : target s.params addr with
  | cmd | rounds | sign => rfl
  | word k i =>
    have hk : k.isOperand = true := by simpa [htarget, Target.guarded] using hg
    simp only [State.writeTarget, if_pos hk]
  | misaligned | unmapped | id | cfg | status | ctrl | mrs | mrcnt => rw [htarget] at hg; cases hg

theorem memWrite_guarded_of_busy {s : State} {addr : Offset} (hg : (target s.params addr).guarded = true)
    (hb : s.busy = true) (v : Word) : s.memWrite addr v = (s.flagWrBusy, false) := by
  rw [memWrite_guarded hg, if_pos hb]

theorem memWrite_guarded_of_idle {s : State} {addr : Offset} (hg : (target s.params addr).guarded = true)
    (hi : s.phase = .idle) (v : Word) : s.memWrite addr v = (s.writeIdle v (target s.params addr), false) := by
  rw [memWrite_guarded hg, busy_eq_false.mpr hi]
  rfl

/-- An idle write to an operand word replaces that word (R65, R69). -/
theorem memWrite_operand_of_idle {s : State} {k : RegIdx} {i : Nat} {addr : Offset}
    (ht : target s.params addr = .word k i) (hk : k.isOperand = true) (hi : s.phase = .idle) (v : Word) :
    s.memWrite addr v = (s.setOperand k (withWord (s.regValue k) i v), false) := by
  rw [memWrite_guarded_of_idle (by rw [ht]; exact hk) hi, ht, State.writeIdle]

/-- A write does not look at the input that is still to come. -/
theorem memWrite_withScript (s : State) (rest : List Event) (addr : Offset) (v : Word) :
    (s.withScript rest).memWrite addr v = ((s.memWrite addr v).1.withScript rest, (s.memWrite addr v).2) := by
  have hbusy : (s.withScript rest).busy = s.busy := rfl
  simp only [State.memWrite, State.withScript_params]
  cases target s.params addr with
  | misaligned | unmapped | id | cfg | mrs | mrcnt | status | ctrl => rfl
  | cmd | rounds | sign =>
    simp only [State.writeTarget, hbusy]
    split <;> rfl
  | word k i =>
    simp only [State.writeTarget, hbusy]
    split
    · split
      · rfl
      · cases k <;> rfl
    · rfl

/-! ### The two transactions as steps (R63) -/

theorem step_read {s : State} {addr : Offset} {rest : List Event} (hs : s.script = .read addr :: rest) :
    step s = .next ((s.withScript rest).respond (.read (s.memRead addr).1 (s.memRead addr).2)) := by
  simp only [step, nextEvent, hs, State.busRead, memRead_withScript]

theorem step_write {s : State} {addr : Offset} {v : Word} {rest : List Event} (hs : s.script = .write addr v :: rest) :
    step s = .next (((s.memWrite addr v).1.withScript rest).respond (.write (s.memWrite addr v).2)) := by
  simp only [step, nextEvent, hs, State.busWrite, memWrite_withScript]

/-- The step of a write whose effect is known. -/
theorem step_write_of_memWrite {s t : State} {addr : Offset} {v : Word} {err : Bool} {rest : List Event}
    (hs : s.script = .write addr v :: rest) (hm : s.memWrite addr v = (t, err)) :
    step s = .next ((t.withScript rest).respond (.write err)) := by
  rw [step_write hs, hm]

/-- A misaligned or unmapped offset: both transactions answer `err = 1` and change nothing (R66, R67). -/
theorem busError_of_target {s : State} {addr : Offset}
    (ht : target s.params addr = .misaligned ∨ target s.params addr = .unmapped) (v : Word) :
    s.memRead addr = (0#32, true) ∧ s.memWrite addr v = (s, true) ∧
    ∀ rest : List Event,
      (s.script = .read addr :: rest → step s = .next { s with script := rest, rsp := some (.read 0#32 true) }) ∧
      (s.script = .write addr v :: rest → step s = .next { s with script := rest, rsp := some (.write true) }) := by
  have hread : s.memRead addr = (0#32, true) := by rcases ht with ht | ht <;> rw [State.memRead, ht] <;> rfl
  have hwrite : s.memWrite addr v = (s, true) := by rcases ht with ht | ht <;> rw [State.memWrite, ht] <;> rfl
  refine ⟨hread, hwrite, fun rest => ⟨fun hs => ?_, fun hs => step_write_of_memWrite hs hwrite⟩⟩
  rw [step_read hs, hread]
  rfl

/-! ### The statements about single transactions -/

/-- Settles O16: the offset leads to word `i` (R61), whose bits are those of the register (R69). -/
theorem registerWordRead : Obligations.RegisterWordRead := by
  intro s k i addr hp hi ha
  rw [memRead_word (target_word_of_wf hp hi ha)]
  exact ⟨rfl, fun j hj => wordOf_getLsbD _ _ hj⟩

/-- Settles O18: the three ranges lead to no register. -/
theorem unmappedAccess : Obligations.UnmappedAccess :=
  fun _ _ v h => busError_of_target (target_of_unmapped h) v

/-- Settles O17: the alignment test comes first in the register map. -/
theorem misalignedAccess : Obligations.MisalignedAccess :=
  fun s _ v h => busError_of_target (.inl (target_misaligned s.params h)) v

/-- Settles O22: the written word is replaced, the other words and registers are kept. -/
theorem operandWriteThenRead : Obligations.OperandWriteThenRead := by
  intro s k i addr v hp hidle hk hi ha
  have hop : k.isOperand = true := by rcases hk with rfl | rfl | rfl <;> rfl
  have ht := target_word_of_wf hp hi ha
  have hself := regValue_setOperand_same s hop (withWord (s.regValue k) i v)
  rw [memWrite_operand_of_idle ht hop hidle]
  refine ⟨rfl, ?_, fun other hne => ?_, by rw [hself]⟩
  · rw [memRead_word (by rw [setOperand_params]; exact ht), hself, wordOf_withWord]
  · rw [State.memRead, State.memRead, setOperand_params]
    by_cases hword : ∃ j, target s.params other = .word k j
    · obtain ⟨j, hj⟩ := hword
      have hji : j ≠ i := by
        rintro rfl
        obtain ⟨-, ho⟩ := target_eq_word hj
        exact hne (BitVec.eq_of_toNat_eq (ho.trans ha.symm))
      rw [hj, State.readTarget, State.readTarget, hself, wordOf_withWord_of_ne _ _ hji]
    · exact readTarget_setOperand s _ fun j hj => hword ⟨j, hj⟩

/-- Settles O12: the step of a read delivers its answer and uses the event up. -/
theorem readHasNoSideEffect : Obligations.ReadHasNoSideEffect := fun _ _ _ hs => step_read hs

/-- Settles O13: each control register is read at its own offset. -/
theorem controlRegisterReads : Obligations.ControlRegisterReads := fun s =>
  ⟨memRead_ctl s .id, memRead_ctl s .cfg, memRead_ctl s .cmd, memRead_ctl s .status, memRead_ctl s .ctrl,
    memRead_ctl s .rounds, memRead_ctl s .mrs, memRead_ctl s .mrcnt, memRead_ctl s .sign⟩

/-- The read-only registers of R61: the constants, the counts of the prime test, and the results (R22, R68). -/
theorem readOnly_of_offset {p : Params} {addr : Offset} (hp : p.wf = true)
    (h : addr = 0x0000#15 ∨ addr = 0x0004#15 ∨ addr = 0x0018#15 ∨ addr = 0x001C#15 ∨
      ∃ (k : RegIdx) (i : Nat), (k = .R ∨ k = .X ∨ k = .Y) ∧ i < p.nw ∧
        addr.toNat = 0x1000 * (k.index + 1) + 4 * i) : (target p addr).readOnly = true := by
  rcases h with rfl | rfl | rfl | rfl | ⟨k, i, hk, hi, ha⟩
  · rfl
  · rfl
  · rfl
  · rfl
  · rw [target_word_of_wf hp hi ha]
    rcases hk with rfl | rfl | rfl <;> rfl

/-- Settles O19: a read-only register's write is dropped; `STATUS`, `CTRL` and `SIGN` look at their writable bits. -/
theorem readOnlyWriteIgnored : Obligations.ReadOnlyWriteIgnored := by
  intro s v hp
  have hstatus : ∀ u, s.memWrite 0x000C#15 u = (s.clearFlags u, false) := fun u => memWrite_ctl s .status u
  have hctrl : ∀ u, s.memWrite 0x0010#15 u = ({ s with ctrl := ⟨u.getLsbD 0, u.getLsbD 1⟩ }, false) :=
    fun u => memWrite_ctl s .ctrl u
  have hsign : ∀ u, s.memWrite 0x0020#15 u = (if s.busy then s.flagWrBusy else s.writeIdle u .sign, false) :=
    fun u => memWrite_guarded (addr := 0x0020#15) rfl u
  refine ⟨fun addr haddr => ?_, ?_, ?_, ?_, ?_, ?_, ?_, ?_, ?_, ?_, memRead_ctl s .cmd⟩
  · have hm := memWrite_readOnly (readOnly_of_offset hp haddr) v
    exact ⟨hm, fun rest hs => step_write_of_memWrite hs hm⟩
  · rw [hstatus]
  · rw [hstatus]; rfl
  · rw [hstatus]; rfl
  · rw [hstatus]; rfl
  · rw [hstatus, hstatus]; simp [State.clearFlags]
  · rw [hctrl, hctrl]; simp
  · rw [hsign, hsign]; simp [State.writeIdle]
  · rw [hsign]; cases s.busy <;> rfl
  · rw [hsign]; cases s.busy <;> rfl

/-- Settles O20: each control register's write, delivered as the step of R63. -/
theorem controlRegisterWrites : Obligations.ControlRegisterWrites := by
  intro s v rest
  refine ⟨fun addr hs => step_write hs, fun hs => ?_, fun hs => step_write_of_memWrite hs (memWrite_ctl s .ctrl v),
    fun hidle hs => ?_, fun hidle hs => ?_⟩
  · rw [step_write_of_memWrite hs (memWrite_ctl s .status v)]
    simp only [State.clearFlags, State.withScript, State.respond]
    cases v.getLsbD 1 <;> cases v.getLsbD 4 <;> simp
  · exact step_write_of_memWrite hs (memWrite_guarded_of_idle (addr := 0x0014#15) rfl hidle v)
  · exact step_write_of_memWrite hs (memWrite_guarded_of_idle (addr := 0x0020#15) rfl hidle v)

/-- Settles O21: the named offsets are the guarded targets, whose write a busy block flags. -/
theorem busyWriteOnlyFlags : Obligations.BusyWriteOnlyFlags := by
  intro s addr v rest c hp hrun hs haddr
  have hg : (target s.params addr).guarded = true := guarded_target_iff.mpr <|
    haddr.imp_right <| Or.imp_right <| Or.imp_right fun ⟨k, i, hk, hi, ha⟩ => ⟨k, i, hk, target_word_of_wf hp hi ha⟩
  exact step_write_of_memWrite hs (memWrite_guarded_of_busy hg (busy_eq_true.mpr ⟨c, hrun⟩) v)

/-! ### While a command runs (R73) -/

/-- Two states with the same parameters, operands, input signs, round count and results. -/
structure RegistersKept (s t : State) : Prop where
  params : t.params = s.params
  regs : ∀ k, t.regValue k = s.regValue k
  rounds : t.rounds = s.rounds
  sign : t.sign = s.sign
  mrs : t.mrs = s.mrs
  mrcnt : t.mrcnt = s.mrcnt

theorem registersKept_withWork (s : State) (w : Work) : RegistersKept s (s.withWork w) :=
  ⟨rfl, fun _ => rfl, rfl, rfl, rfl, rfl⟩

/-- The input that is still to come is no part of it. -/
theorem RegistersKept.of_withScript {s t : State} {rest : List Event} (h : RegistersKept (s.withScript rest) t) :
    RegistersKept s t := ⟨h.params, h.regs, h.rounds, h.sign, h.mrs, h.mrcnt⟩

/-- An engine turn that leaves a command in flight has only drawn and waits. -/
theorem registersKept_engineTurn {s t : State} (h : engineTurn s = .next t) (ht : t.phase ≠ .idle) :
    RegistersKept s t := by
  rcases engineTurn_cases h with ⟨-, rfl⟩ | ⟨c, err, -, -, rfl⟩ | ⟨c, i, -, -, hx⟩
  · exact registersKept_withWork t t.work
  · exact absurd rfl ht
  · rcases exec_effect hx with ⟨o, rest, -, rfl, -⟩ | ⟨-, w, rest, rfl⟩
    · exact absurd (commit_phase _ o) ht
    · exact (registersKept_withWork (s.withScript rest) w).of_withScript

theorem registersKept_engineTick (s : State) : RegistersKept s s.engineTick := by
  obtain ⟨w, hw⟩ := engineTick_eq s
  rw [hw]
  exact registersKept_withWork s w

/-- An answer writes no register, not even where it ends the command. -/
theorem registersKept_sampleAnswer (s : State) (ans : RngAnswer) : RegistersKept s (s.sampleAnswer ans) := by
  rcases sampleAnswer_cases s ans with h | ⟨d, e, i, req, -, ⟨-, h⟩ | ⟨a, -, h⟩⟩ <;> rw [h]
  · exact registersKept_withWork s s.work
  · exact ⟨rfl, fun _ => rfl, rfl, rfl, rfl, rfl⟩
  · exact registersKept_withWork s _

/-- A busy block takes writes to `STATUS` and `CTRL` only, and flags the others (R72). -/
theorem registersKept_busWrite {s : State} (hb : s.busy = true) (addr : Offset) (v : Word) :
    RegistersKept s (s.busWrite addr v) := by
  unfold State.busWrite
  rcases memWrite_cases s addr v with ⟨he, -⟩ | ⟨-, he⟩ | ⟨-, he⟩ | ⟨-, -, he⟩ | ⟨-, hidle, -⟩
  case inr.inr.inr.inr => rw [hb] at hidle; cases hidle
  all_goals
    rw [he]
    exact ⟨rfl, fun _ => rfl, rfl, rfl, rfl, rfl⟩

/-- A step that begins and ends with a command in flight writes no register. -/
theorem registersKept_step {s t : State} (hb : s.busy = true) (h : step s = .next t) (ht : t.phase ≠ .idle) :
    RegistersKept s t := by
  rcases step_cases h with ⟨-, hx⟩ | ⟨rest, -, hx⟩ | ⟨rest, -, rfl⟩ | ⟨ans, rest, -, rfl⟩ | ⟨addr, rest, -, rfl⟩ |
    ⟨addr, v, rest, -, rfl⟩ | ⟨rest, -, rfl⟩
  · exact registersKept_engineTurn hx ht
  · exact (registersKept_engineTurn hx ht).of_withScript
  · exact (registersKept_engineTick (s.withScript rest)).of_withScript
  · exact (registersKept_sampleAnswer (s.withScript rest) ans).of_withScript
  · exact ⟨rfl, fun _ => rfl, rfl, rfl, rfl, rfl⟩
  · exact (registersKept_busWrite (s := s.withScript rest) hb addr v).of_withScript
  · exact absurd rfl ht

/-- Settles O29: no step within a command writes a register, and the invariant gives the three flags. -/
theorem busyKeepsOperandsAndResults : Obligations.BusyKeepsOperandsAndResults := by
  intro s t c hinv hrun hstep hrun'
  have hk := registersKept_step (busy_eq_true.mpr ⟨c, hrun⟩) hstep (by simp [hrun'])
  obtain ⟨hdone, herr, hprime, -⟩ := (stepKeepsTheInvariant s t hinv hstep).busy c hrun'
  exact ⟨hk.regs .A, hk.regs .B, hk.regs .M, hk.rounds, hk.sign, hk.params, hk.regs .R, hk.regs .X, hk.regs .Y,
    hk.mrs, hk.mrcnt, hprime, herr, hdone⟩

/-! ### The answers of the randomness source (R74, R75) -/

/-- What `draw` makes a failure of (R75). -/
theorem drawValue_eq_none {req : RngReq} {ans : RngAnswer} :
    drawValue req ans = none ↔ ans.fail = true ∨ ans.val < req.lo ∨ ans.val > req.hi := by
  have hsome : drawValue req ans ≠ none ↔ ans.fail = false ∧ req.lo ≤ ans.val ∧ ans.val ≤ req.hi := by
    rw [Option.ne_none_iff_exists']
    simp only [drawValue_eq_some, exists_and_left, exists_eq, and_true]
  rw [← not_iff_not, ← Ne, hsome]
  simp

/-- An answer without a request is not sampled (R262). -/
theorem sampleAnswer_of_no_request {s : State} (h : ∀ d e i req, s.work ≠ .mrAwait d e i req) (ans : RngAnswer) :
    s.sampleAnswer ans = s := by
  rcases sampleAnswer_cases s ans with he | ⟨d, e, i, req, hw, -⟩
  · exact he
  · exact absurd hw (h d e i req)

section
variable {s : State} {d e i : Nat} {req : RngReq} {ans : RngAnswer} (hw : s.work = .mrAwait d e i req)
include hw

theorem sampleAnswer_failed (hd : drawValue req ans = none) : s.sampleAnswer ans = s.takeError .rngFailure := by
  simp [State.sampleAnswer, hw, hd]

theorem sampleAnswer_drawn {a : Nat} (hd : drawValue req ans = some a) :
    s.sampleAnswer ans = s.withWork (.mrPow d e i a (PowWork.start a d s.m)) := by
  simp [State.sampleAnswer, hw, hd]

/-- An answer is the end of its request. -/
theorem rngRequest_sampleAnswer : (s.sampleAnswer ans).rngRequest = none := by
  cases hd : drawValue req ans with
  | none => rw [sampleAnswer_failed hw hd]; rfl
  | some a => rw [sampleAnswer_drawn hw hd]; rfl

end

/-- With the draw pending, the engine's drawing a good answer is its sampling, gone on with (log entry 5). -/
theorem exec_mrtest_drawn {s : State} {d e i a : Nat} {ans : RngAnswer} (hv : smallVerdict s.m = none)
    (hw : s.work = .mrAwait d e i (witnessReq s.m)) (hi : i < s.rounds.toNat)
    (hd : drawValue (witnessReq s.m) ans = some a) (rest : List Event) :
    exec .mrtest (s.withScript (.answer ans :: rest)) = exec .mrtest ((s.withScript rest).sampleAnswer ans) := by
  rw [sampleAnswer_drawn (s := s.withScript rest) hw hd]
  refine exec_mrtest_congr (s := s.withScript (.answer ans :: rest)) (evs := rest) hv ?_
  rw [State.withScript_work, hw]
  exact mrRounds_answer hi hd rest

/-- A bad answer ends the test in the engine's turn as in its sampling (R159). -/
theorem exec_mrtest_failed {s : State} {d e i : Nat} {ans : RngAnswer} (hv : smallVerdict s.m = none)
    (hw : s.work = .mrAwait d e i (witnessReq s.m)) (hi : i < s.rounds.toNat)
    (hd : drawValue (witnessReq s.m) ans = none) (rest : List Event) :
    exec .mrtest (s.withScript (.answer ans :: rest)) = .next ((s.withScript rest).sampleAnswer ans) := by
  have hfail : mrResume s.m s.rounds.toNat (.answer ans :: rest) s.work = .failed rest := by
    simp [hw, mrResume, mrRounds, hi, hd]
  have hexec := exec_mrtest_rounds (s := s.withScript (.answer ans :: rest)) hv
  simp only [State.withScript_m, State.withScript_rounds, State.withScript_script, State.withScript_work, hfail] at hexec
  rw [hexec, sampleAnswer_failed (s := s.withScript rest) hw hd]
  rfl

/-- Settles O51: the step of an answer is its sampling, which for a pending draw is what the engine's turn makes of
it. -/
theorem samplingIsDrawing : Obligations.SamplingIsDrawing := by
  refine ⟨fun s ans rest => ?_, fun s d e i ans rest hv hw hi => ⟨fun hd => ?_, fun hd => ?_⟩⟩
  · have hstep : step (s.withScript (.answer ans :: rest)) = .next ((s.withScript rest).sampleAnswer ans) := rfl
    rw [hstep]
    refine ⟨rfl, fun hno => ?_, fun d e i req hw => ⟨fun hbad => ?_, fun hf hlo hhi => ?_, fun t ht => ?_⟩⟩
    · rw [sampleAnswer_of_no_request (s := s.withScript rest) hno]
    · rw [sampleAnswer_failed (s := s.withScript rest) hw (drawValue_eq_none.mpr hbad)]
      rfl
    · rw [sampleAnswer_drawn (s := s.withScript rest) hw (drawValue_eq_some.mpr ⟨hf, hlo, hhi, rfl⟩)]
      rfl
    · cases ht
      exact rngRequest_sampleAnswer (s := s.withScript rest) hw
  · obtain ⟨a, ha⟩ := Option.ne_none_iff_exists'.mp hd
    exact exec_mrtest_drawn hv hw hi ha rest
  · exact exec_mrtest_failed hv hw hi hd rest

end Sys2Proof.Machine
end

section
/-! SUPPORT. The encoding (30_encoding.md): which words the decoder takes, how a word that is no command ends, and the
words of a W-bit register as the host assembles and loads them. -/

namespace Sys2Proof.Machine

/-! ### The decoder (R90 to R93) -/

/-- A reserved bit decides, whatever the opcode (R92). -/
theorem decode_of_reservedBits {c : Word} (h : cmdRsv c ≠ 0) : decode c = .error .reservedBits := if_pos h

/-- Every opcode above those of R91 is reserved (R93). -/
theorem decodeOp_of_le {op : BitVec 8} (h : 8 ≤ op.toNat) : decodeOp op = .error .reservedOpcode := by
  unfold decodeOp
  split
  case h_9 => rfl
  all_goals omega

theorem decode_of_reservedOpcode {c : Word} (hrsv : cmdRsv c = 0) (hop : 8 ≤ (cmdOp c).toNat) :
    decode c = .error .reservedOpcode := by
  rw [decode, if_neg (not_not.mpr hrsv), decodeOp_of_le hop]

/-- A table row's word of 32 bits is read by the decoder. -/
theorem decodeTableWord_of_decode {c : Word} {i : Instr} (h : decode c = .ok i) :
    decodeTableWord 32 c.toNat = some i := by
  simp [decodeTableWord, Nat.mod_eq_of_lt c.isLt, c.isLt, h]

/-- Settles O2: one word for each command. -/
theorem decodeAndEncodeAgree : Obligations.DecodeAndEncodeAgree :=
  ⟨fun i => ⟨decode_encode_ok i, decodeTableWord_of_decode (decode_encode_ok i)⟩, fun _ _ => eq_encode_of_decode⟩

/-- Settles O1: the eight words are those of `encode`, the five others have a reserved opcode or bit. -/
theorem decodeReadsTheOpcodeMap : Obligations.DecodeReadsTheOpcodeMap :=
  ⟨decode_encode_ok .nop, decode_encode_ok .modmul, decode_encode_ok .modexp, decode_encode_ok .egcd,
    decode_encode_ok .modinv, decode_encode_ok .mrtest, decode_encode_ok .mrwit, decode_encode_ok .montmul,
    decode_of_reservedOpcode (by decide) (by decide), decode_of_reservedOpcode (by decide) (by decide),
    decode_of_reservedBits (by decide), decode_of_reservedBits (by decide), decode_of_reservedBits (by decide)⟩

/-! ### A word that is no command of the instance (R92, R93, R187) -/

/-- Only MONTMUL can be missing on an instance (R10). -/
theorem wf_eq_false_iff {p : Params} {i : Instr} : i.wf p = false ↔ i = .montmul ∧ p.mont = false := by
  cases i <;> simp [Instr.wf]

theorem exec_montmul_of_mont_false {s : State} (h : s.params.mont = false) :
    exec .montmul s = .next (s.takeError .illegalCommand) := by
  simp [exec, execMontmul, montmulOutcome, h]

/-- The engine's turn ends such a word by the decode, or by MONTMUL's test of `MONT`. -/
theorem engineTurn_of_no_command {s : State} {c : Word} (hp : s.phase = .run c)
    (hc : ∀ i : Instr, i.wf s.params = true → c ≠ encode i) :
    engineTurn s = .next (s.takeError .illegalCommand) := by
  have hturn : engineTurn s = runWord c s := by rw [engineTurn, hp]
  rw [hturn, runWord]
  cases hd : decode c with
  | error e => rfl
  | ok i =>
    have hwf : i.wf s.params = false := by
      rw [← Bool.not_eq_true]
      exact fun hi => hc i hi (eq_encode_of_decode hd)
    obtain ⟨rfl, hmont⟩ := wf_eq_false_iff.mp hwf
    exact exec_montmul_of_mont_false hmont

/-- Settles O3: both steps give the engine its turn. -/
theorem otherWordsEndInIllegalCommand : Obligations.OtherWordsEndInIllegalCommand := fun s _ hp hc =>
  ⟨fun rest => engineTurn_of_no_command (s := s.withScript rest) hp hc,
    engineTurn_of_no_command (s := s.withScript []) hp hc⟩

/-! ### A value and its words (R69, R94) -/

theorem wordOf_zero_toNat (v : Nat) : (wordOf v 0).toNat = v % 2 ^ 32 := by simp [wordOf]

/-- The words above word 0 are those of the value without it. -/
theorem wordOf_succ (v i : Nat) : wordOf v (i + 1) = wordOf (v / 2 ^ 32) i := by
  rw [wordOf, wordOf, Nat.div_div_eq_div_mul, ← pow_add, show 32 + 32 * i = 32 * (i + 1) by omega]

/-- Settles O23, by induction on the number of words, word 0 taken off. -/
theorem registerIsTheSumOfItsWords : Obligations.RegisterIsTheSumOfItsWords := by
  intro nw
  induction nw with
  | zero =>
    intro v hv
    obtain rfl : v = 0 := by simpa using hv
    rfl
  | succ n ih =>
    intro v hv
    have hhigh : v / 2 ^ 32 < 2 ^ (32 * n) := by
      rwa [Nat.div_lt_iff_lt_mul (by positivity), ← pow_add, ← Nat.mul_succ]
    have hwords : wordOf v ∘ Nat.succ = wordOf (v / 2 ^ 32) := funext (wordOf_succ v)
    rw [List.range_succ_eq_map, List.map_cons, List.map_map, hwords, assemble, ih _ hhigh, wordOf_zero_toNat,
      Nat.mod_add_div]

/-! ### Loading an operand register (R98) -/

/-- The value `u` with its words below word `n` replaced by those of `v`. -/
def withLowWords (u v n : Nat) : Nat := v % 2 ^ (32 * n) + 2 ^ (32 * n) * (u / 2 ^ (32 * n))

theorem withLowWords_testBit (u v n j : Nat) :
    (withLowWords u v n).testBit j = if j < 32 * n then v.testBit j else u.testBit j := by
  rw [withLowWords, Nat.add_comm, Nat.testBit_two_pow_mul_add _ (Nat.mod_lt _ (by positivity))]
  split
  · simp [Nat.testBit_mod_two_pow, *]
  · rw [Nat.testBit_div_two_pow, Nat.sub_add_cancel (by omega)]

@[simp] theorem withLowWords_zero (u v : Nat) : withLowWords u v 0 = u := by simp [withLowWords, Nat.mod_one]

/-- Writing word `n` of `v` after the words below it. -/
theorem withWord_withLowWords (u v n : Nat) :
    withWord (withLowWords u v n) n (wordOf v n) = withLowWords u v (n + 1) := by
  apply Nat.eq_of_testBit_eq
  intro j
  rw [withWord_testBit, withLowWords_testBit, withLowWords_testBit]
  by_cases hlow : j < 32 * n
  · rw [if_neg (by omega), if_pos hlow, if_pos (by omega)]
  · by_cases hin : j < 32 * (n + 1)
    · rw [if_pos (by omega), if_pos hin, wordOf_getLsbD _ _ (by omega), Nat.add_sub_cancel' (by omega)]
    · rw [if_neg (by omega), if_neg hlow, if_neg hin]

/-- Once all words are written nothing of the old value is left. -/
theorem withLowWords_of_lt {u v n : Nat} (hu : u < 2 ^ (32 * n)) (hv : v < 2 ^ (32 * n)) :
    withLowWords u v n = v := by
  rw [withLowWords, Nat.mod_eq_of_lt hv, Nat.div_eq_of_lt hu, Nat.mul_zero, Nat.add_zero]

theorem setOperand_regValue (s : State) (k : RegIdx) : s.setOperand k (s.regValue k) = s := by cases k <;> rfl

/-- The offset of word `i` leads there (R61). -/
theorem target_wordOffset {p : Params} (k : RegIdx) {i : Nat} (hp : p.wf = true) (hi : i < p.nw) :
    target p (wordOffset k i) = .word k i := by
  obtain ⟨-, hnw⟩ : 1 ≤ p.nw ∧ p.nw ≤ 1024 := by simpa [Params.wf] using hp
  have hk := k.index_le
  refine target_word hnw hi ?_
  rw [wordOffset, BitVec.toNat_ofNat, Nat.mod_eq_of_lt (by omega)]

theorem ldop_succ (n : Nat) (k : RegIdx) (v : Nat) :
    ldop (n + 1) k v = ldop n k v ++ [.write (wordOffset k n) (wordOf v n)] := by
  simp [ldop, List.range_succ]

/-- One step more at the end of a run. -/
theorem run_succ_of_run {M : Host.Core} {n : Nat} {s t : M.State} (h : M.run n s = .next t) :
    M.run (n + 1) s = M.step t := by
  induction n generalizing s with
  | zero => cases h; exact run_one M t
  | succ n ih =>
    rw [Host.Core.run] at h ⊢
    cases hs : M.step s with
    | next s' => rw [hs] at h; exact ih h
    | fault r => rw [hs] at h; cases h
    | refused r => rw [hs] at h; cases h

/-- The block after the first `n` writes of `LDOP k, v`: the words of `k` below word `n` are those of `v`, and the last
write is answered. -/
def State.afterLoads (s : State) (k : RegIdx) (v n : Nat) : State :=
  { s.setOperand k (withLowWords (s.regValue k) v n) with rsp := if n = 0 then s.rsp else some (.write false) }

@[simp] theorem afterLoads_zero (s : State) (k : RegIdx) (v : Nat) : s.afterLoads k v 0 = s := by
  simp [State.afterLoads, setOperand_regValue]

theorem afterLoads_of_ne_zero (s : State) (k : RegIdx) (v : Nat) {n : Nat} (hn : n ≠ 0) :
    s.afterLoads k v n = (s.setOperand k (withLowWords (s.regValue k) v n)).respond (.write false) := by
  rw [State.afterLoads, if_neg hn]
  rfl

/-- A later write to the same register, and its answer, leave nothing of an earlier one. -/
theorem respond_setOperand_setOperand (s : State) (k : RegIdx) (u w : Nat) (rsp : Option BusRsp) (ans : BusRsp) :
    ({ s.setOperand k u with rsp := rsp }.setOperand k w).respond ans = (s.setOperand k w).respond ans := by
  cases k <;> rfl

section
variable {s : State} {k : RegIdx} (hp : s.params.wf = true) (hidle : s.phase = .idle) (hk : k.isOperand = true)
include hp hidle hk

/-- The next write of LDOP. -/
theorem step_load (v : Nat) {n : Nat} (hn : n < s.params.nw) (rest : List Event) :
    step ((s.afterLoads k v n).withScript (.write (wordOffset k n) (wordOf v n) :: rest)) =
      .next ((s.afterLoads k v (n + 1)).withScript rest) := by
  have hparams : (s.afterLoads k v n).params = s.params := setOperand_params s k _
  have hphase : (s.afterLoads k v n).phase = .idle := (setOperand_phase s k _).trans hidle
  have hreg : (s.afterLoads k v n).regValue k = withLowWords (s.regValue k) v n := regValue_setOperand_same s hk _
  have hwrite := memWrite_operand_of_idle (s := s.afterLoads k v n) (by rw [hparams]; exact target_wordOffset k hp hn)
    hk hphase (wordOf v n)
  rw [hreg, withWord_withLowWords] at hwrite
  have hnext : ((s.afterLoads k v n).setOperand k (withLowWords (s.regValue k) v (n + 1))).respond (.write false) =
      s.afterLoads k v (n + 1) := by
    rw [afterLoads_of_ne_zero s k v n.succ_ne_zero, State.afterLoads, respond_setOperand_setOperand]
  rw [step_write rfl, memWrite_withScript, hwrite, ← hnext]
  rfl

/-- The loop of LDOP, by induction on the number of writes done. -/
theorem run_ldop (v : Nat) {n : Nat} (hn : n ≤ s.params.nw) (rest : List Event) :
    core.run n (s.withScript (ldop n k v ++ rest)) = .next ((s.afterLoads k v n).withScript rest) := by
  induction n generalizing rest with
  | zero => rw [afterLoads_zero]; rfl
  | succ n ih =>
    rw [ldop_succ, List.append_assoc, run_succ_of_run (ih (by omega) _)]
    exact step_load hp hidle hk v hn rest

end

/-- Settles O24: after all its writes the register holds `v`, whatever it held. -/
theorem loadOperandLoadsTheValue : Obligations.LoadOperandLoadsTheValue := by
  intro s k v rest hs hidle hk hv
  have hop : k.isOperand = true := by rcases hk with rfl | rfl | rfl <;> rfl
  obtain ⟨hnw, -⟩ : 1 ≤ s.params.nw ∧ s.params.nw ≤ 1024 := by simpa [Params.wf] using hs.params
  rw [run_ldop hs.params hidle hop v le_rfl rest, afterLoads_of_ne_zero s k v (by omega),
    withLowWords_of_lt (hs.regValue_lt k) hv]
  rfl

end Sys2Proof.Machine
end

section
/-! SUPPORT. MODMUL and MODEXP (40_modmul_modexp.md R110 to R115): what they commit from wherever their engine stands,
and the values of the exponentiation loop after each number of iterations. -/

namespace Sys2Proof.Machine

/-! ### MODMUL (R111) -/

/-- The modulus is tested before anything else. -/
theorem modmulOutcome_of_m_zero {s : State} (hm : s.m = 0) : modmulOutcome s = .error .invalidModulus := if_pos hm

theorem modmulOutcome_of_m_ne_zero {s : State} (h : s.WorkOk) (hm : s.m ≠ 0) :
    modmulOutcome s = .ok (.value (s.a * s.b % s.m)) := by
  rw [modmulOutcome, if_neg hm, productAB_eq h]

/-- Settles O31: the outcome is committed, and acceptance leaves the engine at a place of the command's own. -/
theorem modmulResult : Obligations.ModmulResult := by
  refine ⟨rfl, fun s hw => ⟨fun hm => ?_, fun hm => ?_⟩⟩
  · rw [exec, execModmul, modmulOutcome_of_m_ne_zero (workOk_of_fresh hw) hm]
    rfl
  · rw [exec, execModmul, modmulOutcome_of_m_zero hm]
    rfl

/-! ### MODEXP (R112, R114) -/

/-- The modulus is tested first, whatever `A` and `B` hold (R114). -/
theorem modexpOutcome_of_m_zero {s : State} (hm : s.m = 0) : modexpOutcome s = .error .invalidModulus := if_pos hm

theorem modexpOutcome_of_m_ne_zero {s : State} (h : s.WorkOk) (hm : s.m ≠ 0) :
    modexpOutcome s = .ok (.value (s.a ^ s.b % s.m)) := by
  rw [modexpOutcome, if_neg hm, powResult_eq h]

/-- Settles O32: the loop ends with the power (`modexp_eq_pow_mod`, by way of `powResult_eq`), which is committed. -/
theorem modexpResult : Obligations.ModexpResult := by
  refine ⟨rfl, fun s hw => ⟨fun hm => ?_, fun hm => ?_⟩⟩
  · rw [exec, execModexp, modexpOutcome_of_m_ne_zero (workOk_of_fresh hw) hm]
    rfl
  · rw [exec, execModexp, modexpOutcome_of_m_zero hm]
    rfl

/-! ### The exponentiation loop after `k` iterations (R113, R115) -/

section
variable (base exponent m k : Nat)

/-- The exponent loses one bit in each iteration. -/
theorem iterate_next_ex : ((PowWork.next m)^[k] (PowWork.start base exponent m)).ex = exponent / 2 ^ k := by
  induction k with
  | zero => simp [PowWork.start]
  | succ k ih =>
    simp only [Function.iterate_succ_apply', PowWork.next]
    rw [ih, Nat.div_div_eq_div_mul, pow_succ]

/-- The base power is squared in each iteration. -/
theorem iterate_next_bp : ((PowWork.next m)^[k] (PowWork.start base exponent m)).bp = base ^ 2 ^ k % m := by
  induction k with
  | zero => simp [PowWork.start]
  | succ k ih =>
    simp only [Function.iterate_succ_apply', PowWork.next, mulmod]
    rw [ih, ← Nat.mul_mod, ← pow_add, pow_succ, Nat.mul_two]

/-- Bit `k` of the exponent decides whether its power `base ^ 2 ^ k` is multiplied in. -/
theorem iterate_next_acc :
    ((PowWork.next m)^[k] (PowWork.start base exponent m)).acc = base ^ (exponent % 2 ^ k) % m := by
  induction k with
  | zero => simp [PowWork.start, Nat.mod_one]
  | succ k ih =>
    simp only [Function.iterate_succ_apply', PowWork.next, mulmod]
    rw [iterate_next_ex, iterate_next_bp, ih, Nat.mod_pow_succ]
    rcases Nat.mod_two_eq_zero_or_one (exponent / 2 ^ k) with hbit | hbit
    · simp [hbit]
    · rw [if_pos hbit, hbit, ← Nat.mul_mod, ← pow_add, Nat.mul_one]

end

/-- `bitlen` counts the bits: a number has at most `k` exactly when it is below `2 ^ k`. -/
theorem bitlen_le_iff_lt_two_pow {v k : Nat} : bitlen v ≤ k ↔ v < 2 ^ k := by
  by_cases hv : v = 0
  · simp [hv]
  · rw [bitlen, if_neg hv, Nat.succ_le_iff, Nat.log2_lt hv]

/-- Settles O33: the three values by induction on `k`; the exponent is used up once `k` reaches its length. -/
theorem modexpLoopInvariant : Obligations.ModexpLoopInvariant := by
  intro base exponent m k _
  refine ⟨iterate_next_bp base exponent m k, iterate_next_acc base exponent m k, iterate_next_ex base exponent m k, ?_⟩
  rw [iterate_next_ex, bitlen_le_iff_lt_two_pow, Nat.div_eq_zero_iff_lt (by positivity)]

end Sys2Proof.Machine
end

section
/-! SUPPORT. The Euclidean unit (41_egcd_modinv.md R130 to R138): the recursion of `E` and of `egcd`, the triple the
loop ends with from any rows, the signs, the bounds, and what EGCD and MODINV commit. -/

namespace Sys2Proof.Machine

/-! ### The recursion of `E` (R130) -/

/-- The way back out of the recursive call of R130, with `q` the quotient of the call. -/
def backStep (q : Int) : Int × Int × Int → Int × Int × Int
  | (g, x, y) => (g, y - q * x, x)

/-- The first argument falls in absolute value at every call. -/
theorem natAbs_tmod_lt {a : Int} (b : Int) (ha : a ≠ 0) : (b.tmod a).natAbs < a.natAbs := by
  rw [Int.natAbs_tmod]
  exact Nat.mod_lt _ (Int.natAbs_pos.mpr ha)

/-- Induction along the recursion of R130. -/
theorem tmod_induction {P : Int → Int → Prop} (zero : ∀ b, P 0 b)
    (step : ∀ a b, a ≠ 0 → P (b.tmod a) a → P a b) (a b : Int) : P a b := by
  induction hn : a.natAbs using Nat.strong_induction_on generalizing a b with
  | _ n ih =>
    subst hn
    by_cases ha : a = 0
    · rw [ha]; exact zero b
    · exact step a b ha (ih _ (natAbs_tmod_lt b ha) _ _ rfl)

/-- Depth beyond the end of the recursion changes nothing. -/
theorem rawEFuel_fuel : ∀ (f g : Nat) (a b : Int), a.natAbs ≤ f → a.natAbs ≤ g →
    rawEFuel f a b = rawEFuel g a b
  | 0, 0, _, _, _, _ => rfl
  | 0, _ + 1, a, b, hf, _ => by
    have ha : a = 0 := by omega
    simp [rawEFuel, ha]
  | _ + 1, 0, a, b, _, hg => by
    have ha : a = 0 := by omega
    simp [rawEFuel, ha]
  | f + 1, g + 1, a, b, hf, hg => by
    by_cases ha : a = 0
    · simp [rawEFuel, ha]
    · have hlt := natAbs_tmod_lt b ha
      rw [rawEFuel, rawEFuel, rawEFuel_fuel f g (b.tmod a) a (by omega) (by omega)]

@[simp] theorem rawE_zero (b : Int) : rawE 0 b = (b, 0, 1) := rfl

theorem rawE_of_ne_zero {a : Int} (b : Int) (ha : a ≠ 0) :
    rawE a b = backStep (b.tdiv a) (rawE (b.tmod a) a) := by
  have hlt := natAbs_tmod_lt b ha
  obtain ⟨f, hf⟩ : ∃ f, a.natAbs = f + 1 := ⟨a.natAbs - 1, by omega⟩
  rw [rawE, hf, rawEFuel, if_neg ha, rawE, rawEFuel_fuel f _ _ _ (by omega) le_rfl]
  rfl

/-- A Bézout identity of the call's arguments gives one of the caller's. -/
theorem backStep_bezout (a b : Int) {t : Int × Int × Int} (h : b.tmod a * t.2.1 + a * t.2.2 = t.1) :
    a * (backStep (b.tdiv a) t).2.1 + b * (backStep (b.tdiv a) t).2.2 = (backStep (b.tdiv a) t).1 := by
  obtain ⟨g, x, y⟩ := t
  simp only [backStep] at h ⊢
  rw [← h, Int.tmod_def]
  ring

theorem rawE_bezout (a b : Int) : a * (rawE a b).2.1 + b * (rawE a b).2.2 = (rawE a b).1 := by
  induction a, b using tmod_induction with
  | zero b => simp
  | step a b ha ih => rw [rawE_of_ne_zero b ha]; exact backStep_bezout a b ih

/-- The raw `g` is the greatest common divisor but for its sign (R132). -/
theorem rawE_natAbs (a b : Int) : (rawE a b).1.natAbs = Nat.gcd a.natAbs b.natAbs := by
  induction a, b using tmod_induction with
  | zero b => simp
  | step a b ha ih =>
    rw [rawE_of_ne_zero b ha, Nat.gcd_rec, ← Int.natAbs_tmod]
    exact ih

/-- On numbers that are not negative the raw `g` is not negative, so `N` changes nothing there (R135). -/
theorem rawE_nonneg {a b : Int} (ha : 0 ≤ a) (hb : 0 ≤ b) : 0 ≤ (rawE a b).1 := by
  induction a, b using tmod_induction with
  | zero b => exact hb
  | step a b hne ih => rw [rawE_of_ne_zero b hne]; exact ih (Int.tmod_nonneg a hb) ha

/-- Settles O34: the recursion has depth enough, and the identity goes back through every call. -/
theorem rawRecursion : Obligations.RawRecursion := by
  refine ⟨rawE_zero, fun a b g x1 y1 ha h => ?_, fun a b => natAbs_tmod_lt b, fun a b g x y h => ?_⟩
  · rw [rawE_of_ne_zero b ha, h]
    rfl
  · simpa only [h] using rawE_bezout a b

/-! ### The normalised triple (R132) -/

theorem normalize_of_nonneg {g : Int} (x y : Int) (h : 0 ≤ g) : normalize (g, x, y) = (g, x, y) := if_neg (by omega)

theorem normalize_of_neg {g : Int} (x y : Int) (h : g < 0) : normalize (g, x, y) = (-g, -x, -y) := if_pos h

/-- Changing all three signs keeps a Bézout identity. -/
theorem normalize_bezout {a b : Int} {t : Int × Int × Int} (h : a * t.2.1 + b * t.2.2 = t.1) :
    a * (normalize t).2.1 + b * (normalize t).2.2 = (normalize t).1 := by
  obtain ⟨g, x, y⟩ := t
  rcases lt_or_ge g 0 with hg | hg
  · rw [normalize_of_neg x y hg]
    linear_combination -h
  · rw [normalize_of_nonneg x y hg]
    exact h

/-- The way back is linear, so `N` may be taken before it or after it. -/
theorem normalize_backStep (q : Int) (t : Int × Int × Int) :
    normalize (backStep q t) = backStep q (normalize t) := by
  obtain ⟨g, x, y⟩ := t
  rcases lt_or_ge g 0 with hg | hg
  · rw [normalize_of_neg x y hg, backStep, backStep, normalize_of_neg _ _ hg]
    ring_nf
  · rw [normalize_of_nonneg x y hg, backStep, normalize_of_nonneg _ _ hg]

theorem egcd_of_ne_zero {a : Int} (b : Int) (ha : a ≠ 0) :
    egcd a b = backStep (b.tdiv a) (egcd (b.tmod a) a) := by
  rw [egcd, rawE_of_ne_zero b ha, normalize_backStep, egcd]

theorem egcd_nonneg (a b : Int) : 0 ≤ (egcd a b).1 := normalize_nonneg _

theorem egcd_bezout (a b : Int) : a * (egcd a b).2.1 + b * (egcd a b).2.2 = (egcd a b).1 :=
  normalize_bezout (rawE_bezout a b)

theorem egcd_eq_gcd (a b : Int) : (egcd a b).1 = (Nat.gcd a.natAbs b.natAbs : Int) := by
  have hg : (egcd a b).1.natAbs = (rawE a b).1.natAbs := (normalize_natAbs _ _ _).1
  rw [← rawE_natAbs, ← hg, Int.natAbs_of_nonneg (egcd_nonneg a b)]

/-- Settles O35: `N` changes signs only, and leaves the one that is not negative. -/
theorem egcdIsBezout : Obligations.EgcdIsBezout := by
  refine ⟨fun a b g x y h => ?_, fun a b g x y h => ?_⟩
  · rw [egcd, h]
    exact ⟨normalize_of_nonneg x y, normalize_of_neg x y⟩
  · have hgcd := egcd_eq_gcd a b
    have hbez := egcd_bezout a b
    rw [h] at hgcd hbez
    exact ⟨hgcd, hbez⟩

/-! ### The loop (R134) -/

/-- Induction along the loop of R134. -/
theorem euclidWork_induction {P : EuclidWork → Prop} (done : ∀ w, w.r = 0 → P w)
    (next : ∀ w, w.r ≠ 0 → P w.next → P w) (w : EuclidWork) : P w := by
  induction hn : w.r.natAbs using Nat.strong_induction_on generalizing w with
  | _ n ih =>
    subst hn
    by_cases hr : w.r = 0
    · exact done w hr
    · exact next w hr (ih _ (next_r_lt hr) _ rfl)

/-- What a triple of the pair `(r, old_r)` makes of the two coefficient columns. -/
def EuclidWork.combine (w : EuclidWork) : Int × Int × Int → Int × Int × Int
  | (g, x, y) => (g, x * w.t + y * w.oldT, x * w.s + y * w.oldS)

/-- One iteration does to the columns what the recursive call does to the triple. -/
theorem combine_next (w : EuclidWork) (t : Int × Int × Int) :
    w.next.combine t = w.combine (backStep (w.oldR.tdiv w.r) t) := by
  obtain ⟨g, x, y⟩ := t
  simp only [EuclidWork.combine, EuclidWork.next, backStep]
  ring_nf

/-- From any rows the loop ends with the columns combined by `E(r, old_r)`. -/
theorem finish_eq_combine_rawE (w : EuclidWork) : w.finish = normalize (w.combine (rawE w.r w.oldR)) := by
  induction w using euclidWork_induction with
  | done w hr => simp [EuclidWork.finish, EuclidWork.combine, euclidLoop, hr]
  | next w hr ih => rw [← euclid_finish_next hr, ih, combine_next, rawE_of_ne_zero w.oldR hr, next_r]; rfl

/-- The loop returns the triple of the recursion. -/
@[simp] theorem start_finish (a b : Int) : (EuclidWork.start a b).finish = egcd a b := by
  rw [finish_eq_combine_rawE, egcd]
  simp [EuclidWork.start, EuclidWork.combine]

/-- The two row identities of R134. -/
structure EuclidWork.Identities (a b : Int) (w : EuclidWork) : Prop where
  oldR : w.oldR = b * w.oldS + a * w.oldT
  r : w.r = b * w.s + a * w.t

theorem identities_start (a b : Int) : (EuclidWork.start a b).Identities a b := by
  constructor <;> simp [EuclidWork.start]

theorem identities_iterate {a b : Int} {w : EuclidWork} (h : w.Identities a b) : w.iterate.Identities a b := by
  unfold EuclidWork.iterate
  split
  · exact h
  · exact {
      oldR := h.r
      r := by
        simp only [EuclidWork.next]
        linear_combination h.oldR - w.oldR.tdiv w.r * h.r }

theorem iterate_identities (a b : Int) (k : Nat) :
    (EuclidWork.iterate^[k] (EuclidWork.start a b)).Identities a b := by
  induction k with
  | zero => exact identities_start a b
  | succ k ih => rw [Function.iterate_succ_apply']; exact identities_iterate ih

/-- Settles O36: the loop's columns end as the coefficients of `E`, and each iteration keeps the row identities. -/
theorem euclidLoopIsTheRecursion : Obligations.EuclidLoopIsTheRecursion := by
  intro a b
  refine ⟨start_finish a b, fun k => ?_⟩
  obtain ⟨holdR, hr⟩ := iterate_identities a b k
  exact ⟨holdR, hr⟩

/-! ### Signs (R135) -/

/-- `sgn'` of R135: the sign of 0 is 1. -/
def unitSign (a : Int) : Int := if a < 0 then -1 else 1

theorem unitSign_of_neg {a : Int} (h : a < 0) : unitSign a = -1 := if_pos h

theorem unitSign_of_nonneg {a : Int} (h : 0 ≤ a) : unitSign a = 1 := if_neg (by omega)

theorem unitSign_mul_self (a : Int) : unitSign a * unitSign a = 1 := by
  unfold unitSign
  split <;> rfl

/-- A truncated quotient has the product of the signs. -/
theorem tdiv_eq_unitSign (a b : Int) :
    b.tdiv a = unitSign b * unitSign a * (b.natAbs : Int).tdiv a.natAbs := by
  rcases lt_or_ge a 0 with ha | ha <;> rcases lt_or_ge b 0 with hb | hb <;>
    simp [unitSign_of_neg, unitSign_of_nonneg, abs_of_neg, abs_of_nonneg, ha, hb]

/-- A truncated remainder that is not 0 has the sign of the dividend. -/
theorem unitSign_tmod {a b : Int} (h : b.tmod a ≠ 0) : unitSign (b.tmod a) = unitSign b := by
  rcases lt_or_ge b 0 with hb | hb
  · have hle : 0 ≤ (-b).tmod a := Int.tmod_nonneg a (by omega)
    rw [Int.neg_tmod] at hle
    rw [unitSign_of_neg hb, unitSign_of_neg (by omega)]
  · rw [unitSign_of_nonneg hb, unitSign_of_nonneg (Int.tmod_nonneg a hb)]

/-- A triple of magnitudes with the signs of `a` and `b` put to its coefficients. -/
def withSigns (a b : Int) : Int × Int × Int → Int × Int × Int
  | (g, x, y) => (g, unitSign a * x, unitSign b * y)

/-- Signs put to the triple of a call come back as signs put to the caller's. -/
theorem backStep_withSigns (a b q : Int) (t : Int × Int × Int) :
    backStep (unitSign b * unitSign a * q) (withSigns b a t) = withSigns a b (backStep q t) := by
  obtain ⟨g, x, y⟩ := t
  simp only [withSigns, backStep, Prod.mk.injEq, true_and, and_true]
  linear_combination (-unitSign a * q * x) * unitSign_mul_self b

theorem egcd_zero (b : Int) : egcd 0 b = ((b.natAbs : Int), 0, unitSign b) := by
  rw [egcd, rawE_zero]
  rcases lt_or_ge b 0 with hb | hb
  · rw [normalize_of_neg _ _ hb, unitSign_of_neg hb, Int.ofNat_natAbs_of_nonpos hb.le]
    rfl
  · rw [normalize_of_nonneg _ _ hb, unitSign_of_nonneg hb, Int.natAbs_of_nonneg hb]

theorem egcd_one (b : Int) : egcd 1 b = (1, 1, 0) := by
  rw [egcd_of_ne_zero b one_ne_zero, Int.tmod_one, egcd_zero]
  simp [backStep, unitSign_of_nonneg]

/-- The remainder may be given the sign of the dividend: where it is 0 its coefficient is 0. -/
theorem withSigns_tmod (a b : Int) :
    withSigns (b.tmod a) a (egcd (b.tmod a).natAbs a.natAbs) =
      withSigns b a (egcd (b.tmod a).natAbs a.natAbs) := by
  by_cases hr : b.tmod a = 0
  · simp [hr, egcd_zero, withSigns]
  · simp only [withSigns, unitSign_tmod hr]

/-- The signs may be fixed after a computation on the magnitudes. -/
theorem egcd_eq_withSigns (a b : Int) : egcd a b = withSigns a b (egcd a.natAbs b.natAbs) := by
  induction a, b using tmod_induction with
  | zero b => simp [egcd_zero, withSigns, unitSign_of_nonneg]
  | step a b ha ih =>
    have hmag : (a.natAbs : Int) ≠ 0 := by omega
    have hrem : (b.natAbs : Int).tmod a.natAbs = (b.tmod a).natAbs := by rw [Int.natAbs_tmod]; rfl
    rw [egcd_of_ne_zero b ha, egcd_of_ne_zero _ hmag, hrem, ih, withSigns_tmod, tdiv_eq_unitSign, backStep_withSigns]

/-- Settles O37: `N` changes nothing on magnitudes, and the signs go through every call. -/
theorem egcdSignSymmetry : Obligations.EgcdSignSymmetry := by
  intro a b g x y h
  have hg : 0 ≤ g := by
    simpa only [h] using rawE_nonneg (Int.natCast_nonneg a.natAbs) (Int.natCast_nonneg b.natAbs)
  refine ⟨hg, ?_⟩
  rw [egcd_eq_withSigns, egcd, h, normalize_of_nonneg x y hg]
  rfl

/-! ### Range (R137) -/

theorem egcd_bounds (a b : Int) :
    (egcd a b).1.natAbs ≤ max a.natAbs b.natAbs ∧ (egcd a b).2.1.natAbs ≤ max b.natAbs 1 ∧
      (egcd a b).2.2.natAbs ≤ max a.natAbs 1 := by
  simpa only [start_finish] using finish_bounds (bounded_start a b)

/-- Settles O38: the cross products of the rows do not grow (`EuclidWork.Bounded`). -/
theorem egcdRange : Obligations.EgcdRange := by
  intro a b
  refine ⟨fun g x y h => by simpa only [h] using egcd_bounds a b, fun k => ?_⟩
  have hw : (EuclidWork.iterate^[k] (EuclidWork.start a b)).Bounded a b := bounded_of_euclidReached ⟨k, rfl⟩
  have ha : max a.natAbs 1 ≤ max (max a.natAbs b.natAbs) 1 := max_le_max_right 1 (le_max_left _ _)
  have hb : max b.natAbs 1 ≤ max (max a.natAbs b.natAbs) 1 := max_le_max_right 1 (le_max_right _ _)
  exact ⟨hw.s.trans ha, hw.t.trans hb, hw.oldS.trans ha, hw.oldT.trans hb, hw.oldR, hw.r, hw.q⟩

/-! ### EGCD (R133) -/

/-- Acceptance leaves the rows at their start. -/
theorem euclidRows_of_fresh {s : State} (start : EuclidWork) (hw : s.work = .fresh) : s.euclidRows start = start := by
  rw [State.euclidRows, hw]

theorem egcdOutcome_of_fresh {s : State} (hw : s.work = .fresh) {g x y : Int}
    (h : egcd s.signedA s.signedB = (g, x, y)) : egcdOutcome s = .ok (.bezout g.toNat x y) := by
  rw [egcdOutcome, euclidRows_of_fresh _ hw, egcdStart, start_finish, h]

/-- Settles O39: the loop's triple is committed, and `N` leaves no negative `g`. -/
theorem egcdResult : Obligations.EgcdResult := by
  refine ⟨rfl, fun s a b g x y hw ha hb h => ?_⟩
  have hA : s.signedA = a := ha.symm
  have hB : s.signedB = b := hb.symm
  have hg : 0 ≤ g := by simpa only [h] using normalize_nonneg (rawE a b)
  refine ⟨hg, ?_⟩
  rw [exec, execEgcd, egcdOutcome_of_fresh hw (by rw [hA, hB, egcd, h])]
  rfl

/-! ### MODINV (R138, R140) -/

/-- The modulus is tested before anything else. -/
theorem modinvOutcome_of_m_zero {s : State} (hm : s.m = 0) : modinvOutcome s = .error .invalidModulus := if_pos hm

theorem modinvOutcome_of_m_ne_zero {s : State} (hw : s.work = .fresh) (hm : s.m ≠ 0) {g x y : Int}
    (h : egcd (s.m : Int) (s.a : Int) = (g, x, y)) :
    modinvOutcome s = if g = 1 then .ok (.value (emodNat y s.m)) else .error .notInvertible := by
  rw [modinvOutcome, if_neg hm, euclidRows_of_fresh _ hw, modinvStart, start_finish, h]

/-- The reduced coefficient of `a` is its inverse (R140). -/
theorem mul_emodNat_mod {m a : Nat} {x y : Int} (hm : m ≠ 0) (h : (m : Int) * x + a * y = 1) :
    a * emodNat y m % m = 1 % m := by
  have hcast : (emodNat y m : Int) = y % m := Int.toNat_of_nonneg (Int.emod_nonneg y (by omega))
  have hmod : (a : Int) * y ≡ 1 [ZMOD m] := Int.modEq_iff_dvd.mpr ⟨x, by rw [← h]; ring⟩
  apply Int.natCast_modEq_iff.mp
  push_cast
  rw [hcast]
  exact (Int.ModEq.mul_left _ (Int.mod_modEq y m)).trans hmod

/-- A coefficient within the bounds of R137 is reduced by at most one addition. -/
theorem emod_eq_ite_of_lt {y m : Int} (hlo : -m < y) (hhi : y < m) : y.emod m = if y < 0 then y + m else y := by
  split
  · rw [← Int.emod_eq_of_lt (a := y + m) (b := m) (by omega) (by omega), Int.add_emod_right]
    rfl
  · exact Int.emod_eq_of_lt (by omega) (by omega)

/-- R140: for `m = 1` the coefficient is 0; for another `m` it reaches neither `m` nor `-m`, since `m` would
divide 1. -/
theorem natAbs_coefficient_lt {m a : Nat} {x y : Int} (hm : m ≠ 0) (h : egcd (m : Int) (a : Int) = (1, x, y)) :
    y.natAbs < m := by
  by_cases hone : m = 1
  · subst hone
    rw [Nat.cast_one, egcd_one] at h
    cases h
    decide
  · have hbound : y.natAbs ≤ max m 1 := by
      simpa only [h, Int.natAbs_natCast] using (egcd_bounds m a).2.2
    have hbez : (m : Int) * x + a * y = 1 := by simpa only [h] using egcd_bezout m a
    have hne : y.natAbs ≠ m := by
      intro hy
      have hdvd : (m : Int) ∣ 1 := by
        rw [← hbez]
        exact dvd_add (dvd_mul_right _ _) (dvd_mul_of_dvd_right (Int.natCast_dvd.mpr hy.symm.dvd) _)
      exact hone (Nat.dvd_one.mp (by exact_mod_cast hdvd))
    omega

/-- Settles O40: the modulus is tested first, then `g`, and the coefficient of `A` is reduced once. -/
theorem modinvResult : Obligations.ModinvResult := by
  refine ⟨rfl, fun s g x y hw h => ⟨fun hm hg => ?_, fun hm hg => ?_, fun hm => ?_⟩⟩
  · subst hg
    have hlt := natAbs_coefficient_lt hm h
    have hbez : (s.m : Int) * x + s.a * y = 1 := by simpa only [h] using egcd_bezout s.m s.a
    refine ⟨by omega, by omega, emod_eq_ite_of_lt (by omega) (by omega), emodNat_lt y hm,
      mul_emodNat_mod hm hbez, ?_⟩
    rw [exec, execModinv, modinvOutcome_of_m_ne_zero hw hm h]
    rfl
  · rw [exec, execModinv, modinvOutcome_of_m_ne_zero hw hm h, if_neg hg]
    rfl
  · rw [exec, execModinv, modinvOutcome_of_m_zero hm]
    rfl

end Sys2Proof.Machine
end

section
/-! SUPPORT. MRTEST and MRWIT (42_miller_rabin.md R150 to R164): the deterministic verdicts, how the rounds end once
their draws are there, the one round of MRWIT, and why a prime passes every round. -/

namespace Sys2Proof.Machine

/-! ### The deterministic verdicts (R151, R152) -/

/-- Which numbers need no round, and what is said of them. -/
theorem smallVerdict_eq_some {n : Nat} {v : Bool} :
    smallVerdict n = some v ↔
      ((n ≤ 1 ∨ (n ≠ 2 ∧ n % 2 = 0)) ∧ v = false) ∨ ((n = 2 ∨ n = 3) ∧ v = true) := by
  unfold smallVerdict
  split_ifs <;> cases v <;> simp <;> omega

/-- MRWIT gives MRTEST's deterministic verdicts, whatever `A` holds (R160). -/
theorem exec_mrwit_verdict {s : State} {v : Bool} (h : smallVerdict s.m = some v) :
    exec .mrwit s = .next (s.commit (.ok (.verdict v 0 0))) := by
  simp only [exec, execMrwit, mrwitOutcome, h]

/-- Settles O42: the verdict is committed before any round is looked at. -/
theorem deterministicVerdicts : Obligations.DeterministicVerdicts := fun _ _ h =>
  exec_mrtest_verdict (smallVerdict_eq_some.mpr h)

/-! ### Factoring (R153) -/

/-- Settles O41: the factors of `factored_factor`, whose bounds hold of every such pair. -/
theorem factoringOfCandidate : Obligations.FactoringOfCandidate := by
  intro n hodd hn
  obtain ⟨hf, hd⟩ := factored_factor (smallVerdict_eq_none.mpr ⟨hodd, hn⟩)
  exact ⟨hf.2, hd, hf.exp_pos hd, fun w hw => Nat.le_sub_one_of_lt (hf.exp_lt hw)⟩

/-! ### The rounds of MRTEST once their draws are there (R154, R156, R159) -/

/-- No round is left (R156, R158). -/
theorem mrRounds_end {n t d e i : Nat} (hi : t ≤ i) (evs : List Event) :
    mrRounds n t d e i evs = .decided true e t evs := by
  rcases mrRounds_cases n t d e i evs with ⟨-, h⟩ | ⟨hlt, -⟩ | ⟨hlt, -⟩
  · exact h
  · omega
  · omega

/-- A round whose draw is bad ends the test (R159). -/
theorem mrRounds_bad_draw {n t d e i : Nat} {ans : RngAnswer} (hi : i < t) (hd : drawValue (witnessReq n) ans = none)
    (rest : List Event) : mrRounds n t d e i (.answer ans :: rest) = .failed rest := by
  simp only [mrRounds, if_neg (Nat.not_le.mpr hi), hd]

/-- A round that its witness fails ends the test (R156). -/
theorem mrRounds_failing_round {n t d e i : Nat} {ans : RngAnswer} (hi : i < t) (he : 0 < e) (hin : InRange n ans)
    (hfail : ¬ WitnessPasses n d e ans.val) (rest : List Event) :
    mrRounds n t d e i (.answer ans :: rest) = .decided false e i rest := by
  obtain ⟨hok, hlo, hhi⟩ := hin
  have hround : mrRound n d e ans.val = false := Bool.eq_false_iff.mpr fun h => hfail ((mrRound_iff he).mp h)
  rw [mrRounds_answer hi (drawValue_eq_some.mpr ⟨hok, hlo, hhi, rfl⟩), hround]
  rfl

/-- MRTEST takes the draws that pass one a round, and what the next round makes of the input behind them decides. -/
theorem exec_mrtest_after_draws {s : State} {d e i : Nat} {draws : List RngAnswer} {evs : List Event}
    (hf : Factored s.m d e) (hd : d % 2 = 1) (hat : s.atRound d e i) (hs : s.script = draws.map .answer ++ evs)
    (hlen : i + draws.length ≤ s.rounds.toNat)
    (hpass : ∀ ans ∈ draws, InRange s.m ans ∧ WitnessPasses s.m d e ans.val) :
    exec .mrtest s = .next (s.conclude (mrRounds s.m s.rounds.toNat d e (i + draws.length) evs)) := by
  have hround : ∀ ans ∈ draws, InRange s.m ans ∧ mrRound s.m d e ans.val = true := fun ans hans =>
    (hpass ans hans).imp_right (mrRound_iff (hf.exp_pos hd)).mpr
  rw [exec_mrtest_rounds hf.1, mrResume_atRound hf hd hat, hs, mrRounds_draws evs draws i hlen hround]

/-- Settles O44: after the last draw no round is left. -/
theorem mrtestAllRoundsPass : Obligations.MrtestAllRoundsPass := by
  intro s d e i draws rest hodd hm hd hprod hat hs hlen hpass
  have hf : Factored s.m d e := ⟨smallVerdict_eq_none.mpr ⟨hodd, hm⟩, hprod⟩
  rw [exec_mrtest_after_draws hf hd hat hs hlen.le hpass, mrRounds_end hlen.ge]
  have hcnt : BitVec.ofNat 32 s.rounds.toNat = s.rounds := by simp
  simp only [State.conclude, State.commit_ok, State.writeResults, hcnt]
  rfl

/-- Settles O45: the round after the draws that pass fails. -/
theorem mrtestFirstFailingRound : Obligations.MrtestFirstFailingRound := by
  intro s d e i draws last rest hodd hm hd hprod hat hs hlt hpass hin hfail
  have hf : Factored s.m d e := ⟨smallVerdict_eq_none.mpr ⟨hodd, hm⟩, hprod⟩
  rw [exec_mrtest_after_draws hf hd hat hs hlt.le hpass, mrRounds_failing_round hlt (hf.exp_pos hd) hin hfail]
  rfl

/-- Settles O46: the round after the draws that pass has a bad draw. -/
theorem mrtestDrawFailure : Obligations.MrtestDrawFailure := by
  intro s d e i draws bad rest hodd hm hd hprod hat hs hlt hpass hbad
  have hf : Factored s.m d e := ⟨smallVerdict_eq_none.mpr ⟨hodd, hm⟩, hprod⟩
  rw [exec_mrtest_after_draws hf hd hat hs hlt.le hpass, mrRounds_bad_draw hlt (drawValue_eq_none.mpr hbad)]
  rfl

/-- Settles O43: 3 has its deterministic verdict, and a larger `n` has passed all of no rounds. -/
theorem mrtestZeroRounds : Obligations.MrtestZeroRounds := by
  intro s hw hr hodd hm
  by_cases h3 : s.m = 3
  · rw [if_pos h3]
    exact exec_mrtest_verdict (smallVerdict_eq_some.mpr (.inr ⟨.inr h3, rfl⟩))
  · obtain ⟨hf, hd⟩ := factored_factor (smallVerdict_eq_none.mpr ⟨hodd, by omega⟩)
    rw [if_neg h3, ← hr]
    exact mrtestAllRoundsPass s _ _ 0 [] s.script hodd (by omega) hd hf.2 (.inl ⟨hw, rfl⟩) rfl (by simp [hr]) (by simp)

/-! ### MRWIT (R160) -/

/-- The witness range is tested before the round. -/
theorem exec_mrwit_out_of_range {s : State} (hv : smallVerdict s.m = none) (ha : s.a < 2 ∨ s.m - 2 < s.a) :
    exec .mrwit s = .next (s.commit (.error .operandRange)) := by
  simp only [exec, execMrwit, mrwitOutcome, hv, if_pos ha]

/-- One round with the witness of `A` decides. -/
theorem exec_mrwit_round {s : State} {d e : Nat} (hw : s.work = .fresh) (hf : Factored s.m d e) (hd : d % 2 = 1)
    (hlo : 2 ≤ s.a) (hhi : s.a ≤ s.m - 2) {ok : Bool} (hok : ok = true ↔ WitnessPasses s.m d e s.a) :
    exec .mrwit s = .next (s.commit (.ok (.verdict ok e (if ok = true then 1 else 0)))) := by
  have hround : mrRound s.m d e s.a = ok := Bool.eq_iff_iff.mpr ((mrRound_iff (hf.exp_pos hd)).trans hok.symm)
  have hrange : ¬ (s.a < 2 ∨ s.m - 2 < s.a) := by omega
  simp only [exec, execMrwit, mrwitOutcome, hf.1, if_neg hrange, hw, witnessRound, hf.eq_factor hd, hround]

/-- Settles O48: the verdicts, the range and the round in the order of R160. -/
theorem mrwitResult : Obligations.MrwitResult := by
  refine ⟨rfl, fun s v h => exec_mrwit_verdict (smallVerdict_eq_some.mpr h), fun s d e hw hodd hm hd hprod => ?_⟩
  have hv := smallVerdict_eq_none.mpr ⟨hodd, hm⟩
  refine ⟨fun ha => exec_mrwit_out_of_range hv ha, fun ok hlo hhi hok => ?_⟩
  rw [exec_mrwit_round hw ⟨hv, hprod⟩ hd hlo hhi hok]
  cases ok <;> rfl

/-! ### MRTEST as MRWIT on every draw (R164) -/

/-- MRWIT with the answer as its witness completes with this verdict. -/
def State.MrwitGives (s : State) (v : Bool) (ans : RngAnswer) : Prop :=
  ∃ u, exec .mrwit { s with a := ans.val } = .next u ∧ u.status.prime = v

theorem mrwitGives_iff {s : State} {d e : Nat} (hw : s.work = .fresh) (hf : Factored s.m d e) (hd : d % 2 = 1)
    {ans : RngAnswer} (hin : InRange s.m ans) (v : Bool) :
    s.MrwitGives v ans ↔ (v = true ↔ WitnessPasses s.m d e ans.val) := by
  obtain ⟨-, hlo, hhi⟩ := hin
  constructor
  · rintro ⟨u, hu, rfl⟩
    obtain ⟨ok, hok⟩ : ∃ ok : Bool, ok = true ↔ WitnessPasses s.m d e ans.val := by
      classical exact ⟨decide _, decide_eq_true_iff⟩
    rw [exec_mrwit_round (s := { s with a := ans.val }) hw hf hd hlo hhi hok] at hu
    cases hu
    exact hok
  · exact fun hv => ⟨_, exec_mrwit_round (s := { s with a := ans.val }) hw hf hd hlo hhi hv, rfl⟩

/-- All members of a list have a property, or there is a first that has not. -/
theorem forall_or_first_not {α : Type} (p : α → Prop) (l : List α) :
    (∀ x ∈ l, p x) ∨ ∃ pre x post, l = pre ++ x :: post ∧ (∀ y ∈ pre, p y) ∧ ¬ p x := by
  induction l with
  | nil => exact .inl (by simp)
  | cons a l ih =>
    by_cases ha : p a
    · rcases ih with hall | ⟨pre, x, post, rfl, hpre, hx⟩
      · exact .inl (List.forall_mem_cons.mpr ⟨ha, hall⟩)
      · exact .inr ⟨a :: pre, x, post, rfl, List.forall_mem_cons.mpr ⟨ha, hpre⟩, hx⟩
    · exact .inr ⟨[], a, l, rfl, by simp, ha⟩

/-- Settles O49: on odd `n >= 5` all draws pass (O44), or a first one fails (O45), and MRWIT says which (O48). -/
theorem mrtestIsMrwitOnEveryDraw : Obligations.MrtestIsMrwitOnEveryDraw := by
  intro s draws rest hw hs hdraws
  cases hv : smallVerdict s.m with
  | some v =>
    refine ⟨_, exec_mrtest_verdict hv, rfl, rfl, ?_, fun hodd hm => ?_⟩
    · rcases smallVerdict_eq_some.mp hv with ⟨hm, rfl⟩ | ⟨hm, rfl⟩
      · exact iff_of_false (by simp) (by omega)
      · exact iff_of_true rfl (by omega)
    · rw [smallVerdict_eq_none.mpr ⟨hodd, hm⟩] at hv
      cases hv
  | none =>
    obtain ⟨hodd, hm⟩ := smallVerdict_eq_none.mp hv
    obtain ⟨hf, hd⟩ := factored_factor hv
    obtain ⟨hlen, hin⟩ := hdraws hodd hm
    have hat : s.atRound (factor s.m).1 (factor s.m).2 0 := .inl ⟨hw, rfl⟩
    have htrue : ∀ ans ∈ draws, s.MrwitGives true ans ↔ WitnessPasses s.m (factor s.m).1 (factor s.m).2 ans.val :=
      fun ans hans => (mrwitGives_iff hw hf hd (hin ans hans) true).trans (by simp)
    rcases forall_or_first_not (fun ans => WitnessPasses s.m (factor s.m).1 (factor s.m).2 ans.val) draws with
      hpass | ⟨pre, last, post, rfl, hpre, hlast⟩
    · refine ⟨_, mrtestAllRoundsPass s _ _ 0 draws rest hodd hm hd hf.2 hat hs (by omega)
        fun ans hans => ⟨hin ans hans, hpass ans hans⟩, rfl, rfl, ?_, fun _ _ hfalse => by cases hfalse⟩
      exact iff_of_true rfl (.inr (.inr ⟨hodd, hm, fun ans hans => (htrue ans hans).mpr (hpass ans hans)⟩))
    · have hlastIn : InRange s.m last := hin last (by simp)
      have hpreIn : ∀ ans ∈ pre, InRange s.m ans ∧ _ := fun ans hans => ⟨hin ans (by simp [hans]), hpre ans hans⟩
      have hlt : 0 + pre.length < s.rounds.toNat := by rw [← hlen]; simp
      refine ⟨_, mrtestFirstFailingRound s _ _ 0 pre last (post.map .answer ++ rest) hodd hm hd hf.2 hat
        (by simp [hs]) hlt hpreIn hlastIn hlast, rfl, rfl, ?_, fun _ _ _ => ?_⟩
      · refine iff_of_false (by simp) ?_
        rintro (h2 | h3 | ⟨-, -, hall⟩)
        · omega
        · omega
        · exact hlast ((htrue last (by simp)).mp (hall last (by simp)))
      · exact ⟨pre, last, post, rfl, fun ans hans => (htrue ans (by simp [hans])).mpr (hpre ans hans),
          (mrwitGives_iff hw hf hd hlastIn false).mpr (by simpa using hlast), by simp, rfl⟩

/-! ### Primes (R161) -/

/-- Where no product of nonzero numbers is zero, the only square roots of 1 are 1 and -1: of the numbers squared on the
way to 1, the first is 1 or one of them is -1. -/
theorem eq_one_or_square_eq_neg_one {R : Type} [CommRing R] [NoZeroDivisors R] {x : R} {e : Nat} (h : x ^ 2 ^ e = 1) :
    x = 1 ∨ ∃ j, j < e ∧ x ^ 2 ^ j = -1 := by
  induction e with
  | zero => exact .inl (by simpa using h)
  | succ e ih =>
    rw [pow_succ, pow_mul, sq_eq_one_iff] at h
    rcases h with h1 | hneg
    · exact (ih h1).imp_right fun ⟨j, hj, hx⟩ => ⟨j, by omega, hx⟩
    · exact .inr ⟨e, by omega, hneg⟩

/-- A prime passes the round of every witness it does not divide: by Fermat's little theorem the squarings lead to 1. -/
theorem witnessPasses_of_prime {n d e a : Nat} (hn : n.Prime) (hprod : 2 ^ e * d = n - 1) (ha : ¬ n ∣ a) :
    WitnessPasses n d e a := by
  have : Fact n.Prime := ⟨hn⟩
  have hpow : ((a : ZMod n) ^ d) ^ 2 ^ e = 1 := by
    rw [← pow_mul, Nat.mul_comm, hprod]
    exact ZMod.pow_card_sub_one_eq_one fun h0 => ha ((ZMod.natCast_eq_zero_iff a n).mp h0)
  rcases eq_one_or_square_eq_neg_one hpow with h1 | ⟨j, hj, hneg⟩
  · have hmod : a ^ d % n = 1 % n := (ZMod.natCast_eq_natCast_iff' _ _ n).mp (by simpa using h1)
    exact .inl (hmod.trans (Nat.mod_eq_of_lt hn.one_lt))
  · have hcast : ((a ^ (2 ^ j * d) : Nat) : ZMod n) = ((n - 1 : Nat) : ZMod n) := by
      rw [Nat.mul_comm, pow_mul, Nat.cast_pred hn.pos, ZMod.natCast_self, zero_sub, ← hneg]
      push_cast
      rfl
    have hmod := (ZMod.natCast_eq_natCast_iff' _ _ n).mp hcast
    exact .inr ⟨j, hj, hmod.trans (Nat.mod_eq_of_lt (Nat.sub_one_lt hn.ne_zero))⟩

/-- Settles O50: 2 and 3 have their verdicts, and a larger prime passes with every draw (O44). -/
theorem primesAlwaysPass : Obligations.PrimesAlwaysPass := by
  intro s draws rest hw hprime hs hdraws
  cases hv : smallVerdict s.m with
  | some v =>
    refine ⟨_, exec_mrtest_verdict hv, rfl, rfl, ?_⟩
    rcases smallVerdict_eq_some.mp hv with ⟨hsmall | ⟨hne, heven⟩, -⟩ | ⟨-, rfl⟩
    · exact absurd hprime.one_lt (by omega)
    · exact absurd (hprime.eq_two_or_odd.resolve_left hne) (by omega)
    · rfl
  | none =>
    obtain ⟨hodd, hm⟩ := smallVerdict_eq_none.mp hv
    obtain ⟨hf, hd⟩ := factored_factor hv
    obtain ⟨hlen, hin⟩ := hdraws hm
    have hpass : ∀ ans ∈ draws, InRange s.m ans ∧ WitnessPasses s.m (factor s.m).1 (factor s.m).2 ans.val := by
      intro ans hans
      obtain ⟨-, hlo, hhi⟩ := hin ans hans
      have hndvd : ¬ s.m ∣ ans.val := Nat.not_dvd_of_pos_of_lt (by omega) (by omega)
      exact ⟨hin ans hans, witnessPasses_of_prime hprime hf.2 hndvd⟩
    have hexec := mrtestAllRoundsPass s _ _ 0 draws rest hodd hm hd hf.2 (.inl ⟨hw, rfl⟩) hs (by omega) hpass
    exact ⟨_, hexec, rfl, rfl, rfl⟩

end Sys2Proof.Machine
end

section
/-! SUPPORT. MONTMUL (43_montmul.md R175 to R178): the number `Rinv`, what the command commits, and that the parameter
`MONT` moves through every other command untouched. -/

namespace Sys2Proof.Machine

/-! ### The Montgomery inverse (R175) -/

theorem coprime_montR (p : Params) {m : Nat} (hodd : m % 2 = 1) : Nat.Coprime m (montR p) :=
  (Nat.odd_iff.mpr hodd).coprime_two_right.pow_right _

theorem montRinv_lt (p : Params) {m : Nat} (hm : m ≠ 0) : montRinv p m < m := emodNat_lt _ hm

/-- For an odd modulus the Euclidean unit finds `g = 1`, so its coefficient of `Rm` inverts `Rm`. -/
theorem montR_mul_montRinv_mod (p : Params) {m : Nat} (hodd : m % 2 = 1) : montR p * montRinv p m % m = 1 % m := by
  have hg : (egcd (m : Int) (montR p : Int)).1 = 1 := by
    rw [egcd_eq_gcd]
    exact_mod_cast coprime_montR p hodd
  exact mul_emodNat_mod (by omega) ((egcd_bezout m (montR p)).trans hg)

/-- `Rm` can be cancelled, so it has one inverse below the modulus. -/
theorem eq_montRinv_of_mul_mod {p : Params} {m k : Nat} (hodd : m % 2 = 1) (hk : k < m)
    (h : montR p * k % m = 1 % m) : k = montRinv p m := by
  have hmul : montR p * k ≡ montR p * montRinv p m [MOD m] := h.trans (montR_mul_montRinv_mod p hodd).symm
  exact (hmul.cancel_left_of_coprime (coprime_montR p hodd)).eq_of_lt_of_lt hk (montRinv_lt p (by omega))

/-! ### What MONTMUL commits (R176) -/

theorem montmulOutcome_of_odd {s : State} (h : s.WorkOk) (hmont : s.params.mont = true) (hodd : s.m % 2 = 1) :
    montmulOutcome s = .ok (.value (s.a * s.b * montRinv s.params s.m % s.m)) := by
  rw [montmulOutcome, if_neg (by simp [hmont]), if_neg (by omega), productAB_eq h]

/-- Zero is even, so the parity decides alone. -/
theorem montmulOutcome_of_even {s : State} (hmont : s.params.mont = true) (heven : s.m % 2 = 0) :
    montmulOutcome s = .error .invalidModulus := by
  rw [montmulOutcome, if_neg (by simp [hmont]), if_pos (.inr heven)]

/-- Settles O52: the engine's `Rinv` is the one number that R175 describes, and each case commits its outcome. -/
theorem montmulResult : Obligations.MontmulResult := by
  refine ⟨rfl, fun s hw => ⟨fun hmont hodd => ?_, fun hmont heven => ?_, exec_montmul_of_mont_false⟩⟩
  · refine ⟨montRinv s.params s.m, montRinv_lt _ (by omega), montR_mul_montRinv_mod _ hodd,
      fun _ => eq_montRinv_of_mul_mod hodd, ?_⟩
    rw [exec, execMontmul, montmulOutcome_of_odd (workOk_of_fresh hw) hmont hodd]
    rfl
  · rw [exec, execMontmul, montmulOutcome_of_even hmont heven]
    rfl

/-! ### The parameter `MONT` and the other commands (R10, R178) -/

/-- The same block on the instance with `MONT = f`. -/
def State.withMont (s : State) (f : Bool) : State := { s with params := { s.params with mont := f } }

theorem commit_withMont (s : State) (f : Bool) (o : CmdOutcome) :
    (s.withMont f).commit o = (s.commit o).withMont f := by
  rcases o with r | e
  · cases r <;> rfl
  · rfl

theorem conclude_withMont (s : State) (f : Bool) (p : MrProgress) :
    (s.withMont f).conclude p = (s.conclude p).withMont f := by
  cases p with
  | decided v e cnt rest => rfl
  | failed rest => rfl
  | waiting d e i rest => rfl

/-- MRTEST does not look at `MONT`, neither for its verdicts nor for its rounds. -/
theorem exec_mrtest_withMont {s t : State} (f : Bool) (h : exec .mrtest s = .next t) :
    exec .mrtest (s.withMont f) = .next (t.withMont f) := by
  cases hv : smallVerdict s.m with
  | some v =>
    rw [exec_mrtest_verdict hv] at h
    cases h
    rw [exec_mrtest_verdict (s := s.withMont f) hv, commit_withMont]
  | none =>
    rw [exec_mrtest_rounds hv] at h
    cases h
    rw [exec_mrtest_rounds (s := s.withMont f) hv, conclude_withMont]
    rfl

/-- Settles O53: the outcome of a command other than MONTMUL is computed from fields that are the same on both
instances, and committing it keeps the parameters. -/
theorem montParameterInvisible : Obligations.MontParameterInvisible := by
  intro i s t f hi h
  cases i with
  | montmul => exact absurd rfl hi
  | mrtest => exact exec_mrtest_withMont f h
  | nop | modmul | modexp | egcd | modinv | mrwit =>
    cases h
    exact congrArg Host.Outcome.next (commit_withMont s f _)

end Sys2Proof.Machine
end

section
/-! SUPPORT. Control (44_control_and_access.md R185 to R187): the engine's turn as a step, acceptance as a step, and
NOP from its acceptance to its completion. -/

namespace Sys2Proof.Machine

/-! ### The engine's turn (R187; log entry 3) -/

theorem engineTurn_of_idle {s : State} (hp : s.phase = .idle) : engineTurn s = .next s := by
  rw [engineTurn, hp]

theorem engineTurn_of_decode {s : State} {c : Word} {i : Instr} (hp : s.phase = .run c) (hd : decode c = .ok i) :
    engineTurn s = exec i s := by
  have hturn : engineTurn s = runWord c s := by rw [engineTurn, hp]
  rw [hturn, runWord, hd]

theorem step_of_no_event {s : State} (hs : s.script = []) : step s = engineTurn s := by
  rw [step, nextEvent, hs]

theorem step_engine {s : State} {rest : List Event} (hs : s.script = .engine :: rest) :
    step s = engineTurn (s.withScript rest) := by
  rw [step, nextEvent, hs]

/-- Settles O4: either way the step is the engine's turn, which a running and an idle block take by their phase. -/
theorem stepRunsTheDecodedCommand : Obligations.StepRunsTheDecodedCommand := by
  refine ⟨fun s c i hp hd => ⟨fun hs => ?_, fun rest hs => ?_⟩, fun s hp => ⟨fun hs => ?_, fun rest hs => ?_⟩⟩
  · rw [step_of_no_event hs, engineTurn_of_decode hp hd]
  · rw [step_engine hs, engineTurn_of_decode (s := s.withScript rest) hp hd]
  · rw [step_of_no_event hs, engineTurn_of_idle hp]
  · rw [step_engine hs, engineTurn_of_idle (s := s.withScript rest) hp]

/-! ### Acceptance (R186) -/

section
variable {s : State} {c : Word} {rest : List Event} (hs : s.script = .write 0x0008#15 c :: rest)
include hs

/-- An idle block accepts the word written to `CMD`, whatever it is (R93). -/
theorem step_accept (hp : s.phase = .idle) :
    step s = .next (((s.accept c).withScript rest).respond (.write false)) :=
  step_write_of_memWrite hs (memWrite_guarded_of_idle (addr := 0x0008#15) rfl hp c)

/-- A busy block flags the write and accepts nothing (R72). -/
theorem step_cmd_of_busy (hb : s.busy = true) :
    step s = .next ((s.flagWrBusy.withScript rest).respond (.write false)) :=
  step_write_of_memWrite hs (memWrite_guarded_of_busy (addr := 0x0008#15) rfl hb c)

end

/-- Settles O25: an idle block accepts the word and answers the write; a busy one keeps its phase. -/
theorem acceptanceState : Obligations.AcceptanceState := by
  intro s c rest hs
  refine ⟨fun t hp ht => ?_, fun t running hp ht => ?_, step_accept hs⟩
  · rw [step_accept hs hp] at ht
    cases ht
    exact ⟨rfl, rfl⟩
  · rw [step_cmd_of_busy hs (busy_eq_true.mpr ⟨running, hp⟩)] at ht
    cases ht
    exact hp

/-! ### NOP (R185) -/

/-- NOP has no result, so its outcome is a bare completion. -/
theorem exec_nop (s : State) : exec .nop s = .next s.complete := rfl

/-- Settles O30: the write is acceptance, the turn after it completes NOP. -/
theorem nopCompletes : Obligations.NopCompletes := by
  refine ⟨rfl, exec_nop, fun s rest hp hs => ?_⟩
  have haccept : core.run 1 s =
      .next (((s.accept (encode .nop)).withScript (.engine :: rest)).respond (.write false)) :=
    (run_one core s).trans (step_accept hs hp)
  have hturn : step (((s.accept (encode .nop)).withScript (.engine :: rest)).respond (.write false)) =
      exec .nop (((s.accept (encode .nop)).withScript rest).respond (.write false)) :=
    (step_engine rfl).trans (engineTurn_of_decode rfl (decode_encode_ok .nop))
  exact (run_succ_of_run haccept).trans (hturn.trans (exec_nop _))

end Sys2Proof.Machine
end

section
/-! SUPPORT. Errors (60_exceptions.md): no step stops the block (R234), a command that ends with an error leaves
everything else alone (R232), and which command raises which error (R230). -/

namespace Sys2Proof.Machine

/-! ### No step stops the block (R234) -/

/-- Every command completes or, MRTEST, waits for a draw. -/
theorem exists_exec_eq_next (i : Instr) (s : State) : ∃ t, exec i s = .next t := by
  cases i with
  | mrtest =>
    cases hv : smallVerdict s.m with
    | some v => exact ⟨_, exec_mrtest_verdict hv⟩
    | none => exact ⟨_, exec_mrtest_rounds hv⟩
  | nop | modmul | modexp | egcd | modinv | mrwit | montmul => exact ⟨_, rfl⟩

theorem exists_engineTurn_eq_next (s : State) : ∃ t, engineTurn s = .next t := by
  unfold engineTurn runWord
  cases s.phase with
  | idle => exact ⟨s, rfl⟩
  | run c =>
    dsimp only
    cases decode c with
    | error err => exact ⟨_, rfl⟩
    | ok i => exact exists_exec_eq_next i s

/-- Settles O5: the engine's turn has a next state, and every other event is an update of the state. -/
theorem everyStepHasANextState : Obligations.EveryStepHasANextState := by
  intro s
  unfold step nextEvent
  cases s.script with
  | nil => exact exists_engineTurn_eq_next s
  | cons ev rest =>
    cases ev with
    | engine => exact exists_engineTurn_eq_next (s.withScript rest)
    | tick | answer | read | write | reset => exact ⟨_, rfl⟩

/-! ### What an error leaves (R232) -/

/-- `ERR` after a completion is the outcome's (R188). -/
theorem commit_err_eq_some {s : State} {o : CmdOutcome} {err : CmdError} :
    (s.commit o).status.err = some err ↔ o = .error err := by
  cases o with
  | ok w => simp [State.commit_ok]
  | error e => simp [State.commit_error]

/-- The input MRTEST leaves. -/
def MrProgress.rest : MrProgress → List Event
  | .decided _ _ _ rest | .failed rest | .waiting _ _ _ rest => rest

theorem conclude_script (s : State) (p : MrProgress) : (s.conclude p).script = p.rest := by
  cases p <;> rfl

/-- `rest` is `evs` without some answers at its front. -/
def DrawsFrom (evs rest : List Event) : Prop := ∃ draws : List RngAnswer, evs = draws.map .answer ++ rest

theorem drawsFrom_refl (evs : List Event) : DrawsFrom evs evs := ⟨[], rfl⟩

theorem DrawsFrom.cons_answer {evs rest : List Event} (h : DrawsFrom evs rest) (ans : RngAnswer) :
    DrawsFrom (.answer ans :: evs) rest := by
  obtain ⟨draws, rfl⟩ := h
  exact ⟨ans :: draws, rfl⟩

/-- After a round the input is left to the next one, or left. -/
theorem drawsFrom_afterRound {n t d e i : Nat} {evs : List Event}
    (h : DrawsFrom evs (mrRounds n t d e (i + 1) evs).rest) (passed : Bool) :
    DrawsFrom evs (afterRound n t d e i passed evs).rest := by
  cases passed with
  | true => exact h
  | false => exact drawsFrom_refl evs

/-- The rounds take answers only (R154). -/
theorem drawsFrom_mrRounds (n t d e i : Nat) (evs : List Event) : DrawsFrom evs (mrRounds n t d e i evs).rest := by
  induction evs generalizing i with
  | nil =>
    rcases mrRounds_cases n t d e i [] with ⟨-, h⟩ | ⟨-, -, h⟩ | ⟨-, ans, rest, hne, -⟩
    · rw [h]; exact drawsFrom_refl []
    · rw [h]; exact drawsFrom_refl []
    · cases hne
  | cons ev evs ih =>
    rcases mrRounds_cases n t d e i (ev :: evs) with ⟨-, h⟩ | ⟨-, -, h⟩ | ⟨-, ans, rest, heq, ⟨-, h⟩ | ⟨a, -, h⟩⟩ <;>
      rw [h]
    · exact drawsFrom_refl _
    · exact drawsFrom_refl _
    · cases heq
      exact (drawsFrom_refl evs).cons_answer ans
    · cases heq
      exact (drawsFrom_afterRound (ih (i + 1)) _).cons_answer ans

theorem drawsFrom_mrResume (n t : Nat) (evs : List Event) (w : Work) : DrawsFrom evs (mrResume n t evs w).rest := by
  cases w with
  | mrPow | mrSquare => exact drawsFrom_afterRound (drawsFrom_mrRounds ..) _
  | fresh | product | pow | euclid | mrFactor | mrAwait => exact drawsFrom_mrRounds ..

/-- No command but MRTEST takes input (R24). -/
theorem exec_script_of_ne_mrtest {i : Instr} {s t : State} (h : exec i s = .next t) (hi : i ≠ .mrtest) :
    t.script = s.script := by
  obtain ⟨-, -, -, -, -, -, -, -, -, -, -, -, -, -, hscript⟩ := commandFrame i s t h
  exact hscript hi

/-- Commands take no input but the answers MRTEST draws (R187). -/
theorem drawsFrom_exec {i : Instr} {s t : State} (h : exec i s = .next t) : DrawsFrom s.script t.script := by
  by_cases hi : i = .mrtest
  · subst hi
    cases hv : smallVerdict s.m with
    | some v =>
      rw [exec_mrtest_verdict hv] at h
      cases h
      exact drawsFrom_refl s.script
    | none =>
      rw [exec_mrtest_rounds hv] at h
      cases h
      rw [conclude_script]
      exact drawsFrom_mrResume ..
  · rw [exec_script_of_ne_mrtest h hi]
    exact drawsFrom_refl s.script

/-- A command that leaves an error has taken it, whatever input it has drawn before. -/
theorem exec_eq_takeError {i : Instr} {s t : State} {err : CmdError} (hs : s.status.err = none)
    (h : exec i s = .next t) (ht : t.status.err = some err) : t = (s.takeError err).withScript t.script := by
  rcases exec_effect h with ⟨o, rest, -, rfl, -⟩ | ⟨-, w, rest, rfl⟩
  · obtain rfl := commit_err_eq_some.mp ht
    rfl
  · cases hs.symm.trans ht

/-- An engine turn that leaves an error has taken it, with the input that it has drawn gone. -/
theorem engineTurn_eq_takeError {s t : State} {err : CmdError} (hs : s.status.err = none)
    (h : engineTurn s = .next t) (ht : t.status.err = some err) :
    t = (s.takeError err).withScript t.script ∧ DrawsFrom s.script t.script ∧
      (¬ s.running .mrtest → t.script = s.script) := by
  rcases engineTurn_cases h with ⟨-, rfl⟩ | ⟨c, e, -, -, rfl⟩ | ⟨c, i, hp, hd, hx⟩
  · cases hs.symm.trans ht
  · cases ht
    exact ⟨rfl, drawsFrom_refl s.script, fun _ => rfl⟩
  · exact ⟨exec_eq_takeError hs hx ht, drawsFrom_exec hx,
      fun hne => exec_script_of_ne_mrtest hx fun hi => hne (hi ▸ running_of_decode hp hd)⟩

/-- Settles O56: the turn is the taking of the error, and acceptance has left `PRIME = 0` and `OP` (the invariant). -/
theorem errorsArePrecise : Obligations.ErrorsArePrecise := by
  intro s t c err hinv hrun hstep _ ht
  obtain ⟨-, herr, hprime, hop⟩ := hinv.busy c hrun
  obtain ⟨htake, hdraws, hscript⟩ := engineTurn_eq_takeError herr hstep ht
  obtain ⟨-, -, herrf, -⟩ := statusWordLayout t
  refine ⟨htake, hdraws, fun hc => hscript fun hr => hc (Phase.run.inj (hrun.symm.trans hr)), ?_, ?_, ?_, ?_⟩
  · rw [htake]; exact hprime
  · rw [htake]; exact hop
  · rw [herrf, ht]; rfl
  · rw [htake]; rfl

/-! ### Which command raises which error (R230, R239) -/

theorem modmulOutcome_eq_error {s : State} {err : CmdError} :
    modmulOutcome s = .error err ↔ err = .invalidModulus ∧ s.m = 0 := by
  by_cases hm : s.m = 0 <;> simp [modmulOutcome, hm, eq_comm (a := err)]

theorem modexpOutcome_eq_error {s : State} {err : CmdError} :
    modexpOutcome s = .error err ↔ err = .invalidModulus ∧ s.m = 0 := by
  by_cases hm : s.m = 0 <;> simp [modexpOutcome, hm, eq_comm (a := err)]

/-- MODINV tests the modulus first, then the loop's `g` (R231). -/
theorem modinvOutcome_eq_error {s : State} {err : CmdError} :
    modinvOutcome s = .error err ↔ (err = .invalidModulus ∧ s.m = 0) ∨
      (err = .notInvertible ∧ s.m ≠ 0 ∧ (s.euclidRows (modinvStart s)).finish.1 ≠ 1) := by
  by_cases hm : s.m = 0
  · simp [modinvOutcome, hm, eq_comm (a := err)]
  · by_cases hg : (s.euclidRows (modinvStart s)).finish.1 = 1 <;> simp [modinvOutcome, hm, hg, eq_comm (a := err)]

/-- MONTMUL tests `MONT` first, then the modulus; zero is even. -/
theorem montmulOutcome_eq_error {s : State} {err : CmdError} :
    montmulOutcome s = .error err ↔ (err = .illegalCommand ∧ s.params.mont = false) ∨
      (err = .invalidModulus ∧ s.params.mont = true ∧ s.m % 2 = 0) := by
  cases hmont : s.params.mont with
  | false => simp [montmulOutcome, hmont, eq_comm (a := err)]
  | true =>
    by_cases hm : s.m % 2 = 0
    · simp [montmulOutcome_of_even hmont hm, hm, eq_comm (a := err)]
    · have hodd : ¬ (s.m = 0 ∨ s.m % 2 = 0) := by omega
      rw [montmulOutcome, if_neg (by simp [hmont]), if_neg hodd]
      simp [hm]

/-- MRWIT tests its witness after the deterministic verdicts, which raise nothing (R231). -/
theorem mrwitOutcome_eq_error {s : State} {err : CmdError} :
    mrwitOutcome s = .error err ↔
      err = .operandRange ∧ smallVerdict s.m = none ∧ (s.a < 2 ∨ s.m - 2 < s.a) := by
  unfold mrwitOutcome
  cases smallVerdict s.m with
  | some v => simp
  | none =>
    by_cases ha : s.a < 2 ∨ s.m - 2 < s.a
    · simp only [ha, if_true, CmdOutcome.error.injEq, eq_comm (a := err), and_true]
    · simp only [ha, if_false, reduceCtorEq, and_false]

/-- Only a bad draw ends the rounds with an error (R159). -/
theorem conclude_error {s : State} {p : MrProgress} {err : CmdError} (hs : s.status.err = none)
    (ht : (s.conclude p).status.err = some err) : err = .rngFailure := by
  cases p with
  | decided v e cnt rest => cases commit_err_eq_some.mp ht
  | failed rest => cases commit_err_eq_some.mp ht; rfl
  | waiting d e i rest => cases hs.symm.trans ht

/-- The deterministic verdicts of MRTEST raise nothing (R239). -/
theorem exec_mrtest_error {s t : State} {err : CmdError} (hs : s.status.err = none) (h : exec .mrtest s = .next t)
    (ht : t.status.err = some err) : err = .rngFailure := by
  cases hv : smallVerdict s.m with
  | some v =>
    rw [exec_mrtest_verdict hv] at h
    cases h
    cases commit_err_eq_some.mp ht
  | none =>
    rw [exec_mrtest_rounds hv] at h
    cases h
    exact conclude_error hs ht

/-- Settles O57: the error is the outcome's, and each command's outcome has its own conditions. -/
theorem errorsOfEachCommand : Obligations.ErrorsOfEachCommand := by
  intro i s t err hs h ht
  cases i with
  | mrtest => exact .inr (.inr (.inl ⟨exec_mrtest_error hs h ht, rfl⟩))
  | nop => cases h; cases commit_err_eq_some.mp ht
  | egcd => cases h; cases commit_err_eq_some.mp ht
  | modmul =>
    cases h
    obtain ⟨he, hm⟩ := modmulOutcome_eq_error.mp (commit_err_eq_some.mp ht)
    exact .inl ⟨he, .inl ⟨.inl rfl, hm⟩⟩
  | modexp =>
    cases h
    obtain ⟨he, hm⟩ := modexpOutcome_eq_error.mp (commit_err_eq_some.mp ht)
    exact .inl ⟨he, .inl ⟨.inr (.inl rfl), hm⟩⟩
  | modinv =>
    cases h
    rcases modinvOutcome_eq_error.mp (commit_err_eq_some.mp ht) with ⟨he, hm⟩ | ⟨he, hm, -⟩
    · exact .inl ⟨he, .inl ⟨.inr (.inr rfl), hm⟩⟩
    · exact .inr (.inl ⟨he, rfl, hm⟩)
  | montmul =>
    cases h
    rcases montmulOutcome_eq_error.mp (commit_err_eq_some.mp ht) with ⟨he, hmont⟩ | ⟨he, -, hm⟩
    · exact .inr (.inr (.inr (.inl ⟨he, rfl, hmont⟩)))
    · exact .inl ⟨he, .inr ⟨rfl, hm⟩⟩
  | mrwit =>
    cases h
    obtain ⟨he, hv, ha⟩ := mrwitOutcome_eq_error.mp (commit_err_eq_some.mp ht)
    obtain ⟨hodd, hm⟩ := smallVerdict_eq_none.mp hv
    exact .inr (.inr (.inr (.inr ⟨he, rfl, hodd, hm, ha⟩)))

end Sys2Proof.Machine
end

section
/-! SUPPORT. Liveness (70_reset_and_hazards.md R272, R278): which commands their engine turn completes, how long the
rounds of MRTEST wait, and what polling does to an MRTEST whose draw is never answered. -/

namespace Sys2Proof.Machine

/-! ### Every word but MRTEST completes (R272) -/

/-- The turn ends an illegal word by the decode, and a command but MRTEST by the outcome it commits. -/
theorem engineTurn_completes {s t : State} {c : Word} (hp : s.phase = .run c) (hc : c ≠ encode .mrtest)
    (ht : engineTurn s = .next t) : t.phase = .idle ∧ t.status.done = true := by
  rcases engineTurn_cases ht with ⟨hidle, -⟩ | ⟨c', err, -, -, rfl⟩ | ⟨c', i, hp', hd, hx⟩
  · cases hp.symm.trans hidle
  · exact ⟨rfl, rfl⟩
  · obtain rfl := Phase.run.inj (hp.symm.trans hp')
    rcases exec_effect hx with ⟨o, rest, -, rfl, -⟩ | ⟨rfl, -⟩
    · exact ⟨commit_phase _ o, commit_done _ o⟩
    · exact absurd (eq_encode_of_decode hd) hc

/-! ### MRTEST completes where its draws are there (R272) -/

/-- The rounds have come to an end: no draw is awaited. -/
def MrProgress.Ended : MrProgress → Prop
  | .decided _ _ _ _ | .failed _ => True
  | .waiting _ _ _ _ => False

theorem conclude_completes (s : State) {p : MrProgress} (h : p.Ended) :
    (s.conclude p).phase = .idle ∧ (s.conclude p).status.done = true := by
  cases p with
  | decided v e cnt rest => exact ⟨rfl, rfl⟩
  | failed rest => exact ⟨rfl, rfl⟩
  | waiting d e i rest => exact h.elim

theorem afterRound_ended {n t d e i : Nat} {evs : List Event} (h : (mrRounds n t d e (i + 1) evs).Ended)
    (passed : Bool) : (afterRound n t d e i passed evs).Ended := by
  cases passed with
  | true => exact h
  | false => exact trivial

/-- With an answer for each round that is left no draw is awaited, whether or not the answers are good (R154). -/
theorem mrRounds_ended {n t d e i : Nat} {draws : List RngAnswer} (h : t ≤ i + draws.length) (rest : List Event) :
    (mrRounds n t d e i (draws.map .answer ++ rest)).Ended := by
  induction draws generalizing i with
  | nil =>
    rw [mrRounds_end (i := i) h]
    exact trivial
  | cons ans draws ih =>
    rw [List.length_cons] at h
    rcases mrRounds_cases n t d e i ((ans :: draws).map .answer ++ rest) with ⟨-, he⟩ | ⟨-, hno, -⟩ |
      ⟨-, ans', rest', heq, ⟨-, he⟩ | ⟨a, -, he⟩⟩
    · rw [he]; exact trivial
    · exact absurd rfl (hno ans _)
    · rw [he]; exact trivial
    · cases heq
      rw [he]
      exact afterRound_ended (ih (by omega)) _

/-- The same of the test from wherever the engine stands: no more rounds are left than there are from the start. -/
theorem mrResume_ended {n t : Nat} {draws : List RngAnswer} (h : t ≤ draws.length) (rest : List Event) (w : Work) :
    (mrResume n t (draws.map .answer ++ rest) w).Ended := by
  have hrounds (d e i : Nat) : (mrRounds n t d e i (draws.map .answer ++ rest)).Ended := mrRounds_ended (by omega) rest
  cases w with
  | mrPow d e i a w => exact afterRound_ended (hrounds d e (i + 1)) _
  | mrSquare d e i a x j => exact afterRound_ended (hrounds d e (i + 1)) _
  | fresh | product | pow | euclid | mrFactor | mrAwait => exact hrounds ..

/-- MRTEST completes with its deterministic verdict, or when its rounds end. -/
theorem exec_mrtest_completes {s : State} {draws : List RngAnswer} {rest : List Event}
    (hs : s.script = draws.map .answer ++ rest) (hlen : s.rounds.toNat ≤ draws.length) :
    ∃ t, exec .mrtest s = .next t ∧ t.phase = .idle ∧ t.status.done = true := by
  cases hv : smallVerdict s.m with
  | some v => exact ⟨_, exec_mrtest_verdict hv, rfl, rfl⟩
  | none =>
    refine ⟨_, exec_mrtest_rounds hv, conclude_completes s ?_⟩
    rw [hs]
    exact mrResume_ended hlen rest s.work

/-- Settles O7: the engine's turn commits an outcome, MRTEST's where its rounds end. -/
theorem commandsComplete : Obligations.CommandsComplete := by
  refine ⟨fun s c rest hp hc => ?_, fun s draws rest hr hlen => ?_⟩
  · obtain ⟨t, ht⟩ := exists_engineTurn_eq_next (s.withScript rest)
    exact ⟨t, (step_engine rfl).trans ht, engineTurn_completes (s := s.withScript rest) hp hc ht⟩
  · have hturn : step (s.withScript (.engine :: (draws.map .answer ++ rest))) =
        exec .mrtest (s.withScript (draws.map .answer ++ rest)) :=
      (step_engine rfl).trans (engineTurn_of_decode hr (decode_encode_ok .mrtest))
    rw [hturn]
    exact exec_mrtest_completes rfl hlen

/-! ### An unanswered draw (R48, R272, R278) -/

/-- The block as polling leaves it: the input and the last bus answer are the model's own fields, all else is kept. -/
def State.polled (s : State) (evs : List Event) (rsp : Option BusRsp) : State := { s with script := evs, rsp := rsp }

/-- What is awaited depends on neither field, as long as only polls are still to come. -/
theorem State.stuck.polled {s : State} (h : s.stuck) {evs : List Event} (hevs : ∀ ev ∈ evs, ev.isPoll = true)
    (rsp : Option BusRsp) : (s.polled evs rsp).stuck := by
  obtain ⟨-, hblock⟩ := h
  exact ⟨hevs, hblock⟩

theorem State.stuck.busy {s : State} (h : s.stuck) : s.busy = true := by
  obtain ⟨-, hp, -⟩ := h
  exact busy_eq_true.mpr ⟨_, hp⟩

theorem State.stuck.rngRequest {s : State} (h : s.stuck) : s.rngRequest = some (witnessReq s.m) := by
  obtain ⟨-, -, -, d, e, i, hw, -⟩ := h
  exact rngRequest_eq_some.mpr ⟨d, e, i, hw⟩

/-- A command in flight is no end of a run (R278). -/
theorem State.stuck.not_final {s : State} (h : s.stuck) : ¬ s.final := by
  rintro ⟨-, hidle, -⟩
  exact absurd (busy_eq_false.mpr hidle) (by simp [h.busy])

/-- The engine's turn finds no answer to its draw, and waits on. -/
theorem State.stuck.engineTurn {s : State} (h : s.stuck) : engineTurn s = .next s := by
  obtain ⟨hpoll, hp, hv, d, e, i, hw, hi⟩ := h
  have hno : ∀ ans more, s.script ≠ .answer ans :: more := fun ans more hs =>
    Bool.false_ne_true (hpoll (.answer ans) (by simp [hs]))
  have hwait : mrResume s.m s.rounds.toNat s.script s.work = .waiting d e i s.script := by
    rw [hw, mrResume, mrRounds_waits hi hno]
  rw [engineTurn_of_decode hp (decode_encode_ok .mrtest), exec_mrtest_rounds hv, hwait, State.conclude, ← hw]
  rfl

theorem step_tick {s : State} {rest : List Event} (hs : s.script = .tick :: rest) :
    step s = .next (s.withScript rest).engineTick := by
  rw [step, nextEvent, hs]

/-- An iteration of the engine does not move it either. -/
theorem State.stuck.engineTick {s : State} (h : s.stuck) : s.engineTick = s := by
  obtain ⟨-, hp, -, d, e, i, hw, -⟩ := h
  have htick : tickInstr .mrtest s = s.work := tickMrtest_mrAwait hw
  rw [engineTick_of_running hp, htick, State.withWork_self]

/-- Every step uses up at most one poll, and answers it. -/
theorem State.stuck.step {s : State} (h : s.stuck) :
    ∃ evs rsp, step s = .next (s.polled evs rsp) ∧ (s.polled evs rsp).stuck := by
  have ⟨hpoll, _⟩ := h
  cases hs : s.script with
  | nil =>
    refine ⟨s.script, s.rsp, ?_, h⟩
    exact (step_of_no_event hs).trans h.engineTurn
  | cons ev rest =>
    rw [hs, List.forall_mem_cons] at hpoll
    obtain ⟨hev, hrest⟩ := hpoll
    have hstuck : (s.withScript rest).stuck := h.polled hrest s.rsp
    cases ev with
    | engine => exact ⟨rest, s.rsp, (step_engine hs).trans hstuck.engineTurn, hstuck⟩
    | tick => exact ⟨rest, s.rsp, (step_tick hs).trans (congrArg _ hstuck.engineTick), hstuck⟩
    | read addr => exact ⟨rest, _, step_read hs, h.polled hrest _⟩
    | write | reset | answer => cases hev

/-- No number of steps ends the wait. -/
theorem State.stuck.run {s : State} (h : s.stuck) (k : Nat) :
    ∃ evs rsp, core.run k s = .next (s.polled evs rsp) ∧ (s.polled evs rsp).stuck := by
  induction k with
  | zero => exact ⟨s.script, s.rsp, rfl, h⟩
  | succ k ih =>
    obtain ⟨evs, rsp, hrun, hstuck⟩ := ih
    obtain ⟨evs', rsp', hstep, hstuck'⟩ := hstuck.step
    exact ⟨evs', rsp', (run_succ_of_run hrun).trans hstep, hstuck'⟩

/-- Settles O8: polling keeps the block stuck, with its request on the port; a reset event is the way out. -/
theorem unansweredDrawIsStuck : Obligations.UnansweredDrawIsStuck := by
  intro s h
  refine ⟨fun k => ?_, fun hs => (step_of_no_event hs).trans h.engineTurn, ?_⟩
  · obtain ⟨evs, rsp, hrun, hstuck⟩ := h.run k
    exact ⟨_, hrun, hstuck, hstuck.not_final, hstuck.busy, hstuck.rngRequest, rfl⟩
  · obtain ⟨-, hreset⟩ := resetState (s.withScript [.reset]) [] rfl
    exact hreset

end Sys2Proof.Machine
end
